-- ==== Sys2Proof/Word.lean ====
section
/-! DEFINITION. The block's smallest quantities (rules R7, R8 of 00_scope.md, R54 of 20_memory.md): bytes, byte
sequences, and the sparse byte map that is the block's only memory. -/

namespace Sys2Proof

/-- A byte: 8 bits, value 0 to 255 (R7). -/
abbrev Byte := BitVec 8

/-- A frame: a byte sequence delivered or sent as one message (R8). -/
abbrev Frame := List Byte

/-- The bytes of a SevenBitValue operand or result, most significant digit first (R25, R56). The bytes are 8 bits wide
on purpose, so that an operand with a byte of 0x80 or more can be presented and refused (R25). -/
abbrev Digits := List Byte

/-- A sparse byte map: the listed addresses are its keys and an unlisted address reads as absent (R54). The canonical
form (addresses strictly rising) is `Machine.Memory.wf`. -/
abbrev SparseMap := List Host.Cell

/-- Bit 7 of the byte is clear: a digit, or a MIDI data byte (R7, R75). -/
def isData (b : Byte) : Bool := decide (b.toNat < 0x80)

end Sys2Proof
end

