-- ==== Sys2Proof/Syntax.lean ====
section
/-! DEFINITION. The block's syntax: message types (R150, R200), the operand slots of a command (R25), the result slots of
a response (R26), the events the block executes (R22), and `Instr`, one constructor per row of the opcode table. -/

namespace Sys2Proof

/-- Width selector of a SevenBitValue, after decoding of operand slot `W` (R25): 7, 14 or 28 bits. -/
inductive Width where
  | w7 | w14 | w28
deriving DecidableEq, Repr, Inhabited

/-- The channel-mode kinds, one per controller number 120 to 127 in this order (R160). -/
inductive ChannelModeKind where
  | allSoundOff | resetAllControllers | localControl | allNotesOff
  | omniModeOff | omniModeOn | monoModeOn | polyModeOn
deriving DecidableEq, Repr, Inhabited

/-- MidiMessage, the closed tagged union of R150. Fields are as wide as a caller can present them, so that a value that
breaks an invariant of R151 can be presented to `MC.ENCODE` and refused. -/
inductive MidiMessage where
  | noteOff (channel key velocity : Nat)
  | noteOn (channel key velocity : Nat)
  | polyKeyPressure (channel key pressure : Nat)
  | controlChange (channel controller value : Nat)
  | channelMode (channel : Nat) (kind : ChannelModeKind) (value : Nat)
  | programChange (channel program : Nat)
  | channelPressure (channel pressure : Nat)
  | pitchBend (channel : Nat) (bend : Int)
  | timeCode (msgType value : Nat)
  | songPositionPointer (position : Nat)
  | songSelect (song : Nat)
  | tuneRequest
  | sysExUniversalRealtime (deviceId : Byte) (payload : List Byte)
  | sysExUniversalNonRealtime (deviceId : Byte) (payload : List Byte)
  | sysExManufacturer (id : List Byte) (payload : List Byte)
  | clock
  | start
  | continueMsg
  | stop
  | activeSensing
  | reset
deriving DecidableEq, Repr, Inhabited

/-- The Identity-Reply record of R200 and R207: the raw bytes and, beside them, their integer readings. -/
structure IdentityReply where
  deviceId : Byte
  manufacturer : Byte
  familyBytes : List Byte
  familyCode : BitVec 16
  numberBytes : List Byte
  familyNumberCode : BitVec 16
  revBytes : List Byte
  softwareRev : BitVec 32
deriving DecidableEq, Repr, Inhabited

/-- DeviceMessage, the narrowed message type of R200. -/
inductive DeviceMessage where
  | identityRequest (deviceId : Byte)
  | identityReply (reply : IdentityReply)
  | readRequest (deviceId : Byte) (address size : Digits) (checksum : Byte)
  | dataSet (deviceId : Byte) (address : Digits) (data : List Byte) (checksum : Byte)
  | passthrough (m : MidiMessage)
deriving DecidableEq, Repr, Inhabited

/-- The timeout operand `TO`: 1 + TW bits (R25, R222). -/
structure Timeout where
  has : Bool
  ticks : BitVec 32
deriving DecidableEq, Repr, Inhabited

/-- The operand slots of a command (R25). `none` is a slot the caller did not supply (R24). `timeout` is slot `TO`. `DEV` is a whole byte because
R210 refuses values of 0x80 and more (log 5). `MAP` is a finite set of addresses, given as a list. -/
structure OperandSlots where
  w : Option (BitVec 2) := none
  a : Option Digits := none
  b : Option Digits := none
  x : Option Digits := none
  k : Option (BitVec 16) := none
  n : Option (BitVec 32) := none
  buf : Option Frame := none
  map : Option (List Nat) := none
  msg : Option MidiMessage := none
  dev : Option Byte := none
  csb : Option Byte := none
  timeout : Option Timeout := none
  h : Option (BitVec 1) := none
  srn : Option (BitVec 3) := none
deriving DecidableEq, Repr, Inhabited

/-- A command record `(op, operands)` (R70). -/
structure Command where
  op : Byte
  operands : OperandSlots
deriving DecidableEq, Repr, Inhabited

/-- The three kinds of event the block executes (R22). -/
inductive Event where
  | cmd (c : Command)
  | rx (frame : Frame)
  | tick
deriving DecidableEq, Repr, Inhabited

/-- Outcome of a request (R34). -/
inductive RequestOutcome where
  | completed | salvaged | timeoutError | checksumMismatch | cancelledError
deriving DecidableEq, Repr, Inhabited

/-- The result record of a slot (R34). -/
structure ResultRecord where
  outcome : RequestOutcome
  degraded : Bool
  map : SparseMap
  ident : Option IdentityReply
deriving DecidableEq, Repr, Inhabited

/-- What result slot `RMSG` holds: a MidiMessage or a narrowed device message (R26). -/
inductive ResultMessage where
  | midi (m : MidiMessage)
  | device (d : DeviceMessage)
deriving DecidableEq, Repr, Inhabited

/-- The result slots of a response beside `ST` (R26). `none` is a slot the operation does not write: it holds nothing
(R24). -/
structure ResultSlots where
  r : Option Digits := none
  rn : Option (BitVec 32) := none
  rc : Option (BitVec 2) := none
  rb : Option Bool := none
  rcs : Option (BitVec 7) := none
  rbuf : Option Frame := none
  rmsg : Option ResultMessage := none
  rh : Option (BitVec 1) := none
  rres : Option ResultRecord := none
  rsr : Option (BitVec 32) := none
deriving DecidableEq, Repr, Inhabited

/-- The instructions: one constructor per row of the opcode table (R71, R73, R80, R200). Operations carry the operand
slots they read; the wire variants and device messages carry the fields of their frame. -/
inductive Instr where
  -- adder unit, op 0x10 to 0x16
  | sbFromint (w : Width) (n : BitVec 32)
  | sbToint (w : Width) (a : Digits)
  | sbTobytes (w : Width) (a : Digits)
  | sbFrombytes (w : Width) (buf : Frame)
  | sbOffsetby (w : Width) (a b : Digits) (k : BitVec 16)
  | sbCmp (w : Width) (a b : Digits)
  | sbDiff (w : Width) (a b : Digits)
  -- address unit, op 0x20 to 0x23
  | dsAddi (a : Digits) (n : BitVec 32)
  | dsSubi (a : Digits) (n : BitVec 32)
  | rgContains (a b x : Digits)
  | rgCovered (a b : Digits) (map : List Nat)
  -- checksum unit, op 0x30 and 0x31
  | csCompute (a : Digits) (buf : Frame)
  | csVerify (a : Digits) (buf : Frame) (csb : Byte)
  -- codec unit, op 0x40 to 0x45
  | mcDecode (buf : Frame)
  | mcEncode (msg : MidiMessage)
  | dxNarrow (msg : MidiMessage)
  | dxMkidreq (dev : Byte)
  | dxMkrq1 (dev : Byte) (a b : Digits)
  | dxMkdt1 (dev : Byte) (a : Digits) (buf : Frame)
  -- matcher unit, op 0x50 to 0x54
  | rqSendu (msg : MidiMessage)
  | rqSendrRead (dev : Byte) (a b : Digits) (timeout : Timeout)
  | rqSendrIdent (dev : Byte) (timeout : Timeout)
  | rqGet (h : BitVec 1)
  | rqCancel (h : BitVec 1)
  -- status unit, op 0x60
  | srRead (srn : BitVec 3)
  -- events without an op code
  | evRx (frame : Frame)
  | evTick
  -- wire variants of formats M1, M2, M3
  | noteOff (channel : BitVec 4) (key velocity : BitVec 7)
  | noteOn (channel : BitVec 4) (key velocity : BitVec 7)
  | polyKeyPressure (channel : BitVec 4) (key pressure : BitVec 7)
  | controlChange (channel : BitVec 4) (controller value : BitVec 7)
  | channelMode (channel : BitVec 4) (kind : ChannelModeKind) (value : BitVec 7)
  | programChange (channel : BitVec 4) (program : BitVec 7)
  | channelPressure (channel : BitVec 4) (pressure : BitVec 7)
  | pitchBend (channel : BitVec 4) (bend : Int)
  | timeCode (msgType : BitVec 3) (value : BitVec 4)
  | songPositionPointer (position : BitVec 14)
  | songSelect (song : BitVec 7)
  | tuneRequest
  | clock
  | start
  | continueMsg
  | stop
  | activeSensing
  | reset
  -- SysEx variants, format MX
  | sysExUniversalRealtime (deviceId : Byte) (payload : List Byte)
  | sysExUniversalNonRealtime (deviceId : Byte) (payload : List Byte)
  | sysExManufacturer (id payload : List Byte)
  -- device messages, one level above the SysEx variants
  | identityRequest (deviceId : Byte)
  | identityReply (deviceId manufacturer : Byte) (family number rev : List Byte)
  | readRequest (deviceId : Byte) (address size : Digits) (checksum : Byte)
  | dataSet (deviceId : Byte) (address : Digits) (data : List Byte) (checksum : Byte)
deriving DecidableEq, Repr, Inhabited

end Sys2Proof
end

