-- ==== Sys2Proof/Config.lean ====
section
/-! DEFINITION. What an implementation of the block fixes and what the spec leaves open (R6, 93_implementation_defined.md
U5, U6, U9). The constants have no value: nothing can be proved from a particular one. `T_TICK` (U10) is no constant
here, since no rule uses it: the model counts ticks (log 6). -/

namespace Sys2Proof

/-- By how much `FRAME_MAX` exceeds 17, the least value R6 allows. -/
opaque Config.frameMaxBeyond : Nat

/-- `FRAME_MAX`, the longest frame in bytes that the RX, TX and BUF paths carry: open, at least 17 (R6, log 6). -/
def Config.frameMax : Nat := Config.frameMaxBeyond + 17

/-- `MAP_CAP`, the most address keys one slot's sparse byte map holds: open (R6, log 6). -/
opaque Config.mapCap : Nat

/-- The result slots beside `ST` of a response whose `ST` is not 0: undefined (R26, U9), so a free value, one for each
value of the counter `State.free` (log 7). -/
opaque Config.undefinedResults : Nat → ResultSlots

/-- `MFR_ID`, the manufacturer ID byte of the device frames (R6). -/
def Config.mfrId : Byte := 0x41

/-- `MODEL_ID`, the three fixed bytes after the device-id in the device frames (R6). -/
def Config.modelId : List Byte := [0x00, 0x00, 0x64]

/-- `CMD_RQ1`, the ReadRequest command byte (R6). -/
def Config.cmdRq1 : Byte := 0x11

/-- `CMD_DT1`, the DataSet command byte (R6). -/
def Config.cmdDt1 : Byte := 0x12

end Sys2Proof
end

