-- ==== Sys2Proof/WellFormed.lean ====
section
/-! DEFINITION. Which frames the wire formats admit (R75, R80 to R85, R190, said as a check of the bytes and not as a
decoder) and which instruction terms are well formed: the operands fit their slots (R25), the fields fit their wire
positions (R77, R151), and the row is the one a frame of it is read as (R92; log 17). -/

namespace Sys2Proof

/-- Length of the fixed-format variant that status value `st` selects; 0 where R80 gives none or the SysEx format. -/
def fixedLength (st : Nat) : Nat :=
  if st < 0x80 then 0
  else if st < 0xC0 then 3
  else if st < 0xE0 then 2
  else if st < 0xF0 then 3
  else match st with
    | 0xF1 => 2
    | 0xF2 => 3
    | 0xF3 => 2
    | 0xF6 => 1
    | 0xF8 => 1
    | 0xFA => 1
    | 0xFB => 1
    | 0xFC => 1
    | 0xFE => 1
    | 0xFF => 1
    | _ => 0

/-- The bytes between `F0` and `F7` of a SysEx frame: 7-bit clean and long enough for the ID or device-id that the first
of them calls for (R190, R191). -/
def sysExInteriorOk (body : List Byte) : Bool :=
  body.all isData &&
  match body with
  | [] => false
  | b :: rest =>
    if b.toNat = 0x7F ∨ b.toNat = 0x7E then decide (1 ≤ rest.length)
    else if b.toNat = 0x00 then decide (2 ≤ rest.length)
    else true

/-- The frames that select a variant and have its form (R84, R85): the "well-formed frames" of R180. -/
def frameWellFormed : Frame → Bool
  | [] => false
  | b :: ds =>
    if b.toNat = 0xF0 then
      decide (ds.getLast? = some 0xF7) && sysExInteriorOk ds.dropLast
    else
      decide (fixedLength b.toNat = ds.length + 1) && ds.all isData

/-- A frame or byte sequence of `n` bytes can stand on the RX port and in `BUF` (R25, U5). -/
def fitsPort (n : Nat) : Bool := decide (n ≤ Config.frameMax)

/-- `valid_D` for `D = 4`: four digits (R9). -/
def fourDigits (d : Digits) : Bool := decide (d.length = 4) && d.all isData

/-- The `id` field of SysExManufacturer: `[b]` with `b` in 0x01 to 0x7D, or `[0x00, b1, b2]` (R194). -/
def manufacturerIdOk : List Byte → Bool
  | [b] => decide (0x01 ≤ b.toNat) && decide (b.toNat ≤ 0x7D)
  | [b, b1, b2] => decide (b.toNat = 0) && isData b1 && isData b2
  | _ => false

/-- The payloads of SysExUniversalNonRealtime that narrow to a device message (R206, R207). -/
def isIdentityPayload (p : List Byte) : Bool :=
  decide (p = [0x06, 0x01]) || (decide (p.length = 11) && decide (p.take 2 = [0x06, 0x02]))

/-- The id and payload pairs of SysExManufacturer that narrow to a device message (R208, R209). -/
def isDevicePayload (id p : List Byte) : Bool :=
  decide (id = [Config.mfrId]) && decide ((p.drop 1).take 3 = Config.modelId) &&
  ((decide (p[4]? = some Config.cmdRq1) && decide (p.length = 14)) ||
   (decide (p[4]? = some Config.cmdDt1) && decide (10 ≤ p.length)))

/-- An operand of SevenBitValue form fits its slot: at most 4 bytes (R25). -/
def fitsSlot (d : Digits) : Bool := decide (d.length ≤ 4)

/-- The well-formed instruction terms. -/
def Instr.wellFormed : Instr → Bool
  | .sbFromint _ _ => true
  | .sbToint _ a => fitsSlot a
  | .sbTobytes _ a => fitsSlot a
  | .sbFrombytes _ buf => fitsPort buf.length
  | .sbOffsetby _ a b _ => fitsSlot a && fitsSlot b
  | .sbCmp _ a b => fitsSlot a && fitsSlot b
  | .sbDiff _ a b => fitsSlot a && fitsSlot b
  | .dsAddi a _ => fitsSlot a
  | .dsSubi a _ => fitsSlot a
  | .rgContains a b x => fitsSlot a && fitsSlot b && fitsSlot x
  | .rgCovered a b map => fitsSlot a && fitsSlot b && map.all fun k => decide (k < 2 ^ 28)
  | .csCompute a buf => fitsSlot a && fitsPort buf.length
  | .csVerify a buf _ => fitsSlot a && fitsPort buf.length
  | .mcDecode buf => fitsPort buf.length
  | .mcEncode _ => true
  | .dxNarrow _ => true
  | .dxMkidreq _ => true
  | .dxMkrq1 _ a b => fitsSlot a && fitsSlot b
  | .dxMkdt1 _ a buf => fitsSlot a && fitsPort buf.length
  | .rqSendu _ => true
  | .rqSendrRead _ a b _ => fitsSlot a && fitsSlot b
  | .rqSendrIdent _ _ => true
  | .rqGet _ => true
  | .rqCancel _ => true
  | .srRead _ => true
  | .evRx frame => fitsPort frame.length && !frameWellFormed frame
  | .evTick => true
  | .noteOff _ _ _ => true
  | .noteOn _ _ _ => true
  | .polyKeyPressure _ _ _ => true
  | .controlChange _ controller _ => decide (controller.toNat < 120)
  | .channelMode _ _ _ => true
  | .programChange _ _ => true
  | .channelPressure _ _ => true
  | .pitchBend _ bend => decide (-8192 ≤ bend) && decide (bend ≤ 8191)
  | .timeCode _ _ => true
  | .songPositionPointer _ => true
  | .songSelect _ => true
  | .tuneRequest => true
  | .clock => true
  | .start => true
  | .continueMsg => true
  | .stop => true
  | .activeSensing => true
  | .reset => true
  | .sysExUniversalRealtime deviceId payload =>
    isData deviceId && payload.all isData && fitsPort (payload.length + 4)
  | .sysExUniversalNonRealtime deviceId payload =>
    isData deviceId && payload.all isData && fitsPort (payload.length + 4) && !isIdentityPayload payload
  | .sysExManufacturer id payload =>
    manufacturerIdOk id && payload.all isData && fitsPort (id.length + payload.length + 2) &&
    !isDevicePayload id payload
  | .identityRequest deviceId => isData deviceId
  | .identityReply deviceId manufacturer family number rev =>
    isData deviceId && isData manufacturer && decide (family.length = 2) && family.all isData &&
    decide (number.length = 2) && number.all isData && decide (rev.length = 4) && rev.all isData
  | .readRequest deviceId address size checksum =>
    isData deviceId && fourDigits address && fourDigits size && isData checksum
  | .dataSet deviceId address data checksum =>
    isData deviceId && fourDigits address && data.all isData && isData checksum && fitsPort (13 + data.length)

end Sys2Proof
end

