-- ==== Sys2Proof/Decode.lean ====
section
/-! DEFINITION. The codec of the wire formats (R75 to R85, R152 to R175, R190 to R209), the decoder from an event to the
instruction it is (total; a command that cannot be accepted is refused by name, R72), the encoder beside it, and the
reading of the opcode table's numbered words. Frames of device-message rows also match their SysEx row (R92): the decoder
answers the device-message row (log 17). -/

namespace Sys2Proof

/-! ### Frames to messages -/

/-- Why a frame is not a message (R85, R155, R190). Only the kind `DecodeError` is observable (U4). -/
inductive FrameError where
  | emptyFrame | unsupportedStatus | truncated | excessBytes | dataByteOutOfRange | unterminatedSysEx
deriving DecidableEq, Repr, Inhabited

/-- The data bytes of a format M1 frame: none (R75, R84). -/
def data0 : List Byte → Except FrameError Unit
  | [] => .ok ()
  | _ => .error .excessBytes

/-- The data byte of a format M2 frame (R75, R84, R152). -/
def data1 : List Byte → Except FrameError Nat
  | [] => .error .truncated
  | [d] => if isData d then .ok d.toNat else .error .dataByteOutOfRange
  | _ => .error .excessBytes

/-- The two data bytes of a format M3 frame (R75, R84, R152). -/
def data2 : List Byte → Except FrameError (Nat × Nat)
  | [] => .error .truncated
  | [_] => .error .truncated
  | [d, e] => if isData d && isData e then .ok (d.toNat, e.toNat) else .error .dataByteOutOfRange
  | _ => .error .excessBytes

/-- The channel-mode kind of a controller number 120 to 127 (R160). -/
def channelModeKind (controller : Nat) : ChannelModeKind :=
  match controller with
  | 120 => .allSoundOff
  | 121 => .resetAllControllers
  | 122 => .localControl
  | 123 => .allNotesOff
  | 124 => .omniModeOff
  | 125 => .omniModeOn
  | 126 => .monoModeOn
  | _ => .polyModeOn

/-- Controller number of a channel-mode kind, `120 + kindcode` (R160). -/
def channelModeController : ChannelModeKind → Nat
  | .allSoundOff => 120
  | .resetAllControllers => 121
  | .localControl => 122
  | .allNotesOff => 123
  | .omniModeOff => 124
  | .omniModeOn => 125
  | .monoModeOn => 126
  | .polyModeOn => 127

/-- A 14-bit MIDI pair, least significant 7 bits first (R58, R77). -/
def pair14 (p : Nat × Nat) : Nat := p.2 * 128 + p.1

/-- Channel-voice frames: high nibble `kind` 0x8 to 0xE, low nibble the channel (R75, R80, R81, R156 to R163). -/
def decodeChannelVoice (kind channel : Nat) (ds : List Byte) : Except FrameError MidiMessage :=
  match kind with
  | 0x8 => (data2 ds).map fun p => .noteOff channel p.1 p.2
  | 0x9 => (data2 ds).map fun p => .noteOn channel p.1 p.2
  | 0xA => (data2 ds).map fun p => .polyKeyPressure channel p.1 p.2
  | 0xB => (data2 ds).map fun p =>
      if p.1 < 120 then .controlChange channel p.1 p.2
      else .channelMode channel (channelModeKind p.1) p.2
  | 0xC => (data1 ds).map fun d => .programChange channel d
  | 0xD => (data1 ds).map fun d => .channelPressure channel d
  | 0xE => (data2 ds).map fun p => .pitchBend channel ((pair14 p : Nat) - 8192 : Int)
  | _ => .error .unsupportedStatus

/-- System-common and real-time frames other than SysEx (R80, R154, R165 to R175). -/
def decodeSystem (st : Nat) (ds : List Byte) : Except FrameError MidiMessage :=
  match st with
  | 0xF1 => (data1 ds).map fun d => .timeCode (d / 16) (d % 16)
  | 0xF2 => (data2 ds).map fun p => .songPositionPointer (pair14 p)
  | 0xF3 => (data1 ds).map fun d => .songSelect d
  | 0xF6 => (data0 ds).map fun _ => .tuneRequest
  | 0xF8 => (data0 ds).map fun _ => .clock
  | 0xFA => (data0 ds).map fun _ => .start
  | 0xFB => (data0 ds).map fun _ => .continueMsg
  | 0xFC => (data0 ds).map fun _ => .stop
  | 0xFE => (data0 ds).map fun _ => .activeSensing
  | 0xFF => (data0 ds).map fun _ => .reset
  | _ => .error .unsupportedStatus

/-- The variant, ID and payload of a SysEx frame from the bytes between `F0` and `F7` (R82, R190). -/
def decodeSysExBody : List Byte → Except FrameError MidiMessage
  | [] => .error .truncated
  | b :: rest =>
    match b.toNat, rest with
    | 0x7F, dev :: payload => .ok (.sysExUniversalRealtime dev payload)
    | 0x7F, [] => .error .truncated
    | 0x7E, dev :: payload => .ok (.sysExUniversalNonRealtime dev payload)
    | 0x7E, [] => .error .truncated
    | 0x00, b1 :: b2 :: payload => .ok (.sysExManufacturer [b, b1, b2] payload)
    | 0x00, _ => .error .truncated
    | _, _ => .ok (.sysExManufacturer [b] rest)

/-- `decodeSysEx` of R190, on the bytes after the leading `F0`, with its checks in their order. -/
def decodeSysEx (ds : List Byte) : Except FrameError MidiMessage :=
  if ds.length < 2 then .error .truncated
  else if ds.getLast? ≠ some 0xF7 then .error .unterminatedSysEx
  else if !ds.dropLast.all isData then .error .dataByteOutOfRange
  else decodeSysExBody ds.dropLast

/-- `decode(bytes)`: the function of `MC.DECODE` (R152) and of step 1 of `EV.RX` (R235). -/
def decodeFrame : Frame → Except FrameError MidiMessage
  | [] => .error .emptyFrame
  | b :: ds =>
    if b.toNat < 0x80 then .error .unsupportedStatus
    else if b.toNat < 0xF0 then decodeChannelVoice (b.toNat / 16) (b.toNat % 16) ds
    else if b.toNat = 0xF0 then decodeSysEx ds
    else decodeSystem b.toNat ds

/-! ### Messages to frames -/

/-- The byte of a value; used only below 256. -/
def byteOf (n : Nat) : Byte := BitVec.ofNat 8 n

/-- Status byte of a channel-voice message: `kkkknnnn` (R75). -/
def statusByte (kind channel : Nat) : Byte := byteOf (16 * kind + channel)

/-- The field invariants of a MidiMessage (R151, R159, R161, R165, R166, R192 to R194). -/
def messageValid : MidiMessage → Bool
  | .noteOff c k v => decide (c < 16) && decide (k < 128) && decide (v < 128)
  | .noteOn c k v => decide (c < 16) && decide (k < 128) && decide (v < 128)
  | .polyKeyPressure c k p => decide (c < 16) && decide (k < 128) && decide (p < 128)
  | .controlChange c n v => decide (c < 16) && decide (n < 120) && decide (v < 128)
  | .channelMode c _ v => decide (c < 16) && decide (v < 128)
  | .programChange c p => decide (c < 16) && decide (p < 128)
  | .channelPressure c p => decide (c < 16) && decide (p < 128)
  | .pitchBend c b => decide (c < 16) && decide (-8192 ≤ b) && decide (b ≤ 8191)
  | .timeCode t v => decide (t < 8) && decide (v < 16)
  | .songPositionPointer p => decide (p < 16384)
  | .songSelect s => decide (s < 128)
  | .tuneRequest => true
  | .sysExUniversalRealtime dev payload => isData dev && payload.all isData
  | .sysExUniversalNonRealtime dev payload => isData dev && payload.all isData
  | .sysExManufacturer id payload => manufacturerIdOk id && payload.all isData
  | .clock => true
  | .start => true
  | .continueMsg => true
  | .stop => true
  | .activeSensing => true
  | .reset => true

/-- `encode(message)` of a message that meets its invariants: the function of `MC.ENCODE` (R153, R156 to R175, R192 to
R194). -/
def encodeMessage : MidiMessage → Frame
  | .noteOff c k v => [statusByte 0x8 c, byteOf k, byteOf v]
  | .noteOn c k v => [statusByte 0x9 c, byteOf k, byteOf v]
  | .polyKeyPressure c k p => [statusByte 0xA c, byteOf k, byteOf p]
  | .controlChange c n v => [statusByte 0xB c, byteOf n, byteOf v]
  | .channelMode c kind v => [statusByte 0xB c, byteOf (channelModeController kind), byteOf v]
  | .programChange c p => [statusByte 0xC c, byteOf p]
  | .channelPressure c p => [statusByte 0xD c, byteOf p]
  | .pitchBend c b =>
    let u := (b + 8192).toNat
    [statusByte 0xE c, byteOf (u % 128), byteOf (u / 128)]
  | .timeCode t v => [0xF1, byteOf (16 * t + v)]
  | .songPositionPointer p => [0xF2, byteOf (p % 128), byteOf (p / 128)]
  | .songSelect s => [0xF3, byteOf s]
  | .tuneRequest => [0xF6]
  | .sysExUniversalRealtime dev payload => [0xF0, 0x7F, dev] ++ payload ++ [0xF7]
  | .sysExUniversalNonRealtime dev payload => [0xF0, 0x7E, dev] ++ payload ++ [0xF7]
  | .sysExManufacturer id payload => [0xF0] ++ id ++ payload ++ [0xF7]
  | .clock => [0xF8]
  | .start => [0xFA]
  | .continueMsg => [0xFB]
  | .stop => [0xFC]
  | .activeSensing => [0xFE]
  | .reset => [0xFF]

/-! ### Device messages -/

/-- `p[i .. i+n-1]` (R8). -/
def slice (p : List Byte) (i n : Nat) : List Byte := (p.drop i).take n

/-- `p[i]` of a position the pattern has checked to exist. -/
def byteAt (p : List Byte) (i : Nat) : Byte := p.getD i 0

/-- The Identity-Reply record with its integer readings: 8-bit steps, first byte most significant (R57, R207). -/
def mkIdentityReply (dev manufacturer : Byte) (family number rev : List Byte) : IdentityReply where
  deviceId := dev
  manufacturer := manufacturer
  familyBytes := family
  familyCode := byteAt family 0 ++ byteAt family 1
  numberBytes := number
  familyNumberCode := byteAt number 0 ++ byteAt number 1
  revBytes := rev
  softwareRev := byteAt rev 0 ++ byteAt rev 1 ++ byteAt rev 2 ++ byteAt rev 3

/-- Narrowing of a SysExUniversalNonRealtime message (R206, R207). -/
def narrowUniversal (dev : Byte) (p : List Byte) : Option DeviceMessage :=
  if p = [0x06, 0x01] then some (.identityRequest dev)
  else if p.length = 11 ∧ byteAt p 0 = 0x06 ∧ byteAt p 1 = 0x02 then
    some (.identityReply (mkIdentityReply dev (byteAt p 2) (slice p 3 2) (slice p 5 2) (slice p 7 4)))
  else none

/-- Narrowing of a SysExManufacturer message (R208, R209). -/
def narrowManufacturer (id p : List Byte) : Option DeviceMessage :=
  if id = [Config.mfrId] ∧ slice p 1 3 = Config.modelId then
    if p.length = 14 ∧ byteAt p 4 = Config.cmdRq1 then
      some (.readRequest (byteAt p 0) (slice p 5 4) (slice p 9 4) (byteAt p 13))
    else if 10 ≤ p.length ∧ byteAt p 4 = Config.cmdDt1 then
      some (.dataSet (byteAt p 0) (slice p 5 4) (slice p 9 (p.length - 10)) (byteAt p (p.length - 1)))
    else none
  else none

/-- The narrowing of `DX.NARROW` (R205); `none` is `UnsupportedMessageError`. -/
def narrow : MidiMessage → Option DeviceMessage
  | .sysExUniversalRealtime _ _ => none
  | .sysExUniversalNonRealtime dev p => narrowUniversal dev p
  | .sysExManufacturer id p => narrowManufacturer id p
  | m => some (.passthrough m)

/-- The Identity-Request message (R206, R210). -/
def identityRequestMessage (dev : Byte) : MidiMessage :=
  .sysExUniversalNonRealtime dev [0x06, 0x01]

/-- The Identity-Reply message (R207). -/
def identityReplyMessage (dev manufacturer : Byte) (family number rev : List Byte) : MidiMessage :=
  .sysExUniversalNonRealtime dev ([0x06, 0x02, manufacturer] ++ family ++ number ++ rev)

/-- The ReadRequest message with checksum byte `c` (R208, R211). -/
def readRequestMessage (dev : Byte) (address size : Digits) (c : Byte) : MidiMessage :=
  .sysExManufacturer [Config.mfrId] ([dev] ++ Config.modelId ++ [Config.cmdRq1] ++ address ++ size ++ [c])

/-- The DataSet message with checksum byte `c` (R209, R212). -/
def dataSetMessage (dev : Byte) (address : Digits) (data : List Byte) (c : Byte) : MidiMessage :=
  .sysExManufacturer [Config.mfrId] ([dev] ++ Config.modelId ++ [Config.cmdDt1] ++ address ++ data ++ [c])

/-! ### Events to instructions -/

/-- Why a command is refused with `IllegalOp` at decode (R72). -/
inductive Rejection where
  /-- The op code is none of R71. -/
  | reservedOp (op : Byte)
  /-- Width selector `W = 3` (R25). -/
  | reservedWidth
  /-- An operand slot the operation reads was not supplied (R24). -/
  | missingOperand (op : Byte)
deriving DecidableEq, Repr, Inhabited

/-- The width a selector names (R25). -/
def widthOfSelector (w : BitVec 2) : Option Width :=
  match w.toNat with
  | 0 => some .w7
  | 1 => some .w14
  | 2 => some .w28
  | _ => none

/-- The selector of a width (R25). -/
def selectorOfWidth : Width → BitVec 2
  | .w7 => 0
  | .w14 => 1
  | .w28 => 2

/-- An instruction of the adder unit, once its width selector is checked. -/
def withWidth (w : BitVec 2) (f : Width → Instr) : Except Rejection Instr :=
  match widthOfSelector w with
  | some v => .ok (f v)
  | none => .error .reservedWidth

/-- The operation a command names, with the operand slots it reads (R71, R72). Slots the operation does not read are not
looked at (log 21). -/
def decodeCommand (c : Command) : Except Rejection Instr :=
  let o := c.operands
  let missing : Except Rejection Instr := .error (.missingOperand c.op)
  match c.op.toNat with
  | 0x10 => match o.w, o.n with
    | some w, some n => withWidth w (.sbFromint · n)
    | _, _ => missing
  | 0x11 => match o.w, o.a with
    | some w, some a => withWidth w (.sbToint · a)
    | _, _ => missing
  | 0x12 => match o.w, o.a with
    | some w, some a => withWidth w (.sbTobytes · a)
    | _, _ => missing
  | 0x13 => match o.w, o.buf with
    | some w, some buf => withWidth w (.sbFrombytes · buf)
    | _, _ => missing
  | 0x14 => match o.w, o.a, o.b, o.k with
    | some w, some a, some b, some k => withWidth w (.sbOffsetby · a b k)
    | _, _, _, _ => missing
  | 0x15 => match o.w, o.a, o.b with
    | some w, some a, some b => withWidth w (.sbCmp · a b)
    | _, _, _ => missing
  | 0x16 => match o.w, o.a, o.b with
    | some w, some a, some b => withWidth w (.sbDiff · a b)
    | _, _, _ => missing
  | 0x20 => match o.a, o.n with
    | some a, some n => .ok (.dsAddi a n)
    | _, _ => missing
  | 0x21 => match o.a, o.n with
    | some a, some n => .ok (.dsSubi a n)
    | _, _ => missing
  | 0x22 => match o.a, o.b, o.x with
    | some a, some b, some x => .ok (.rgContains a b x)
    | _, _, _ => missing
  | 0x23 => match o.a, o.b, o.map with
    | some a, some b, some map => .ok (.rgCovered a b map)
    | _, _, _ => missing
  | 0x30 => match o.a, o.buf with
    | some a, some buf => .ok (.csCompute a buf)
    | _, _ => missing
  | 0x31 => match o.a, o.buf, o.csb with
    | some a, some buf, some csb => .ok (.csVerify a buf csb)
    | _, _, _ => missing
  | 0x40 => match o.buf with
    | some buf => .ok (.mcDecode buf)
    | none => missing
  | 0x41 => match o.msg with
    | some msg => .ok (.mcEncode msg)
    | none => missing
  | 0x42 => match o.msg with
    | some msg => .ok (.dxNarrow msg)
    | none => missing
  | 0x43 => match o.dev with
    | some dev => .ok (.dxMkidreq dev)
    | none => missing
  | 0x44 => match o.dev, o.a, o.b with
    | some dev, some a, some b => .ok (.dxMkrq1 dev a b)
    | _, _, _ => missing
  | 0x45 => match o.dev, o.a, o.buf with
    | some dev, some a, some buf => .ok (.dxMkdt1 dev a buf)
    | _, _, _ => missing
  | 0x50 => match o.msg with
    | some msg => .ok (.rqSendu msg)
    | none => missing
  | 0x51 => match o.dev, o.a, o.b, o.timeout with
    | some dev, some a, some b, some t => .ok (.rqSendrRead dev a b t)
    | _, _, _, _ => missing
  | 0x52 => match o.dev, o.timeout with
    | some dev, some t => .ok (.rqSendrIdent dev t)
    | _, _ => missing
  | 0x53 => match o.h with
    | some h => .ok (.rqGet h)
    | none => missing
  | 0x54 => match o.h with
    | some h => .ok (.rqCancel h)
    | none => missing
  | 0x60 => match o.srn with
    | some srn => .ok (.srRead srn)
    | none => missing
  | _ => .error (.reservedOp c.op)

/-- The row of the opcode table that a message received on RX belongs to: its variant's row, or the device-message row its
SysEx payload narrows to (R83, R92). -/
def rowOfMessage : MidiMessage → Instr
  | .noteOff c k v => .noteOff (BitVec.ofNat 4 c) (BitVec.ofNat 7 k) (BitVec.ofNat 7 v)
  | .noteOn c k v => .noteOn (BitVec.ofNat 4 c) (BitVec.ofNat 7 k) (BitVec.ofNat 7 v)
  | .polyKeyPressure c k p => .polyKeyPressure (BitVec.ofNat 4 c) (BitVec.ofNat 7 k) (BitVec.ofNat 7 p)
  | .controlChange c n v => .controlChange (BitVec.ofNat 4 c) (BitVec.ofNat 7 n) (BitVec.ofNat 7 v)
  | .channelMode c kind v => .channelMode (BitVec.ofNat 4 c) kind (BitVec.ofNat 7 v)
  | .programChange c p => .programChange (BitVec.ofNat 4 c) (BitVec.ofNat 7 p)
  | .channelPressure c p => .channelPressure (BitVec.ofNat 4 c) (BitVec.ofNat 7 p)
  | .pitchBend c b => .pitchBend (BitVec.ofNat 4 c) b
  | .timeCode t v => .timeCode (BitVec.ofNat 3 t) (BitVec.ofNat 4 v)
  | .songPositionPointer p => .songPositionPointer (BitVec.ofNat 14 p)
  | .songSelect s => .songSelect (BitVec.ofNat 7 s)
  | .tuneRequest => .tuneRequest
  | .sysExUniversalRealtime dev p => .sysExUniversalRealtime dev p
  | .sysExUniversalNonRealtime dev p =>
    match narrowUniversal dev p with
    | some (.identityRequest d) => .identityRequest d
    | some (.identityReply r) =>
      .identityReply r.deviceId r.manufacturer r.familyBytes r.numberBytes r.revBytes
    | _ => .sysExUniversalNonRealtime dev p
  | .sysExManufacturer id p =>
    match narrowManufacturer id p with
    | some (.readRequest d a s c) => .readRequest d a s c
    | some (.dataSet d a data c) => .dataSet d a data c
    | _ => .sysExManufacturer id p
  | .clock => .clock
  | .start => .start
  | .continueMsg => .continueMsg
  | .stop => .stop
  | .activeSensing => .activeSensing
  | .reset => .reset

/-- The instruction an inbound frame is: the row it matches, or `EV.RX` itself for a frame that matches no row and that
`EV.RX` answers with `DecodeError` (R85, R235, R239). -/
def decodeRx (f : Frame) : Instr :=
  match decodeFrame f with
  | .ok m => rowOfMessage m
  | .error _ => .evRx f

/-- The instruction an event is. -/
def decodeEvent : Event → Except Rejection Instr
  | .cmd c => decodeCommand c
  | .rx f => .ok (decodeRx f)
  | .tick => .ok .evTick

/-! ### Instructions to events -/

/-- The event of an instruction: the command record with its op code and exactly the operand slots it reads (R70, R71), the
frame of a wire row (R75 to R83), or the tick. -/
def encode : Instr → Event
  | .sbFromint w n => .cmd ⟨0x10, { w := some (selectorOfWidth w), n := some n }⟩
  | .sbToint w a => .cmd ⟨0x11, { w := some (selectorOfWidth w), a := some a }⟩
  | .sbTobytes w a => .cmd ⟨0x12, { w := some (selectorOfWidth w), a := some a }⟩
  | .sbFrombytes w buf => .cmd ⟨0x13, { w := some (selectorOfWidth w), buf := some buf }⟩
  | .sbOffsetby w a b k =>
    .cmd ⟨0x14, { w := some (selectorOfWidth w), a := some a, b := some b, k := some k }⟩
  | .sbCmp w a b => .cmd ⟨0x15, { w := some (selectorOfWidth w), a := some a, b := some b }⟩
  | .sbDiff w a b => .cmd ⟨0x16, { w := some (selectorOfWidth w), a := some a, b := some b }⟩
  | .dsAddi a n => .cmd ⟨0x20, { a := some a, n := some n }⟩
  | .dsSubi a n => .cmd ⟨0x21, { a := some a, n := some n }⟩
  | .rgContains a b x => .cmd ⟨0x22, { a := some a, b := some b, x := some x }⟩
  | .rgCovered a b map => .cmd ⟨0x23, { a := some a, b := some b, map := some map }⟩
  | .csCompute a buf => .cmd ⟨0x30, { a := some a, buf := some buf }⟩
  | .csVerify a buf csb => .cmd ⟨0x31, { a := some a, buf := some buf, csb := some csb }⟩
  | .mcDecode buf => .cmd ⟨0x40, { buf := some buf }⟩
  | .mcEncode msg => .cmd ⟨0x41, { msg := some msg }⟩
  | .dxNarrow msg => .cmd ⟨0x42, { msg := some msg }⟩
  | .dxMkidreq dev => .cmd ⟨0x43, { dev := some dev }⟩
  | .dxMkrq1 dev a b => .cmd ⟨0x44, { dev := some dev, a := some a, b := some b }⟩
  | .dxMkdt1 dev a buf => .cmd ⟨0x45, { dev := some dev, a := some a, buf := some buf }⟩
  | .rqSendu msg => .cmd ⟨0x50, { msg := some msg }⟩
  | .rqSendrRead dev a b t =>
    .cmd ⟨0x51, { dev := some dev, a := some a, b := some b, timeout := some t }⟩
  | .rqSendrIdent dev t => .cmd ⟨0x52, { dev := some dev, timeout := some t }⟩
  | .rqGet h => .cmd ⟨0x53, { h := some h }⟩
  | .rqCancel h => .cmd ⟨0x54, { h := some h }⟩
  | .srRead srn => .cmd ⟨0x60, { srn := some srn }⟩
  | .evRx f => .rx f
  | .evTick => .tick
  | .noteOff c k v => .rx (encodeMessage (.noteOff c.toNat k.toNat v.toNat))
  | .noteOn c k v => .rx (encodeMessage (.noteOn c.toNat k.toNat v.toNat))
  | .polyKeyPressure c k p => .rx (encodeMessage (.polyKeyPressure c.toNat k.toNat p.toNat))
  | .controlChange c n v => .rx (encodeMessage (.controlChange c.toNat n.toNat v.toNat))
  | .channelMode c kind v => .rx (encodeMessage (.channelMode c.toNat kind v.toNat))
  | .programChange c p => .rx (encodeMessage (.programChange c.toNat p.toNat))
  | .channelPressure c p => .rx (encodeMessage (.channelPressure c.toNat p.toNat))
  | .pitchBend c b => .rx (encodeMessage (.pitchBend c.toNat b))
  | .timeCode t v => .rx (encodeMessage (.timeCode t.toNat v.toNat))
  | .songPositionPointer p => .rx (encodeMessage (.songPositionPointer p.toNat))
  | .songSelect s => .rx (encodeMessage (.songSelect s.toNat))
  | .tuneRequest => .rx (encodeMessage .tuneRequest)
  | .clock => .rx (encodeMessage .clock)
  | .start => .rx (encodeMessage .start)
  | .continueMsg => .rx (encodeMessage .continueMsg)
  | .stop => .rx (encodeMessage .stop)
  | .activeSensing => .rx (encodeMessage .activeSensing)
  | .reset => .rx (encodeMessage .reset)
  | .sysExUniversalRealtime dev p => .rx (encodeMessage (.sysExUniversalRealtime dev p))
  | .sysExUniversalNonRealtime dev p => .rx (encodeMessage (.sysExUniversalNonRealtime dev p))
  | .sysExManufacturer id p => .rx (encodeMessage (.sysExManufacturer id p))
  | .identityRequest dev => .rx (encodeMessage (identityRequestMessage dev))
  | .identityReply dev man family number rev =>
    .rx (encodeMessage (identityReplyMessage dev man family number rev))
  | .readRequest dev a s c => .rx (encodeMessage (readRequestMessage dev a s c))
  | .dataSet dev a data c => .rx (encodeMessage (dataSetMessage dev a data c))

/-! ### Words of the opcode table (R92; log 16)

The table numbers a row's bits from the first byte. A first byte below 0x80 is an op code on the command port, and the bits
above the op are operand slots of zeros; a first byte of 0x80 or more is a status byte, and the word is a frame on RX. -/

/-- The first `n` bytes of `w`, least significant byte first. -/
def wordBytes : Nat → Nat → List Byte
  | 0, _ => []
  | n + 1, w => byteOf (w % 256) :: wordBytes n (w / 256)

/-- Operand slots of zeros. The adder unit's `W = 0` names one digit, the other units' values have four (R100, R120). -/
def zeroOperands (op : Byte) : OperandSlots :=
  let d : Digits := if op.toNat < 0x20 then [0] else [0, 0, 0, 0]
  { w := some 0, a := some d, b := some d, x := some d, k := some 0, n := some 0, buf := some [0], map := some [],
    msg := some (.noteOff 0 0 0), dev := some 0, csb := some 0, timeout := some ⟨false, 0⟩, h := some 0, srn := some 0 }

/-- `f` continued with zeros up to `n` bytes. -/
def padTo (n : Nat) (f : Frame) : Frame := f ++ List.replicate (n - f.length) 0

/-- Length without the closing `F7` of the shortest SysEx frame that continues `f` within its row (R196, R207 to R209). -/
def shortestSysEx (f : Frame) : Nat :=
  if byteAt f 1 = 0x7E then (if byteAt f 3 = 0x06 ∧ byteAt f 4 = 0x02 then 14 else 3)
  else if byteAt f 1 = 0x7F then 3
  else if byteAt f 1 = 0x00 then 4
  else if byteAt f 1 = Config.mfrId ∧ slice f 3 3 = Config.modelId then
    (if byteAt f 6 = Config.cmdRq1 then 16 else if byteAt f 6 = Config.cmdDt1 then 12 else 2)
  else 2

/-- The frame a table word stands for: zeros above the given bits up to the row's length, and the terminator `F7` that
format MX fixes (R75). -/
def completeFrame (f : Frame) : Frame :=
  if byteAt f 0 = 0xF0 then
    if f.getLast? = some 0xF7 then f else padTo (shortestSysEx f) f ++ [0xF7]
  else padTo (fixedLength (byteAt f 0).toNat) f

/-- The event of the instruction whose numbered bits are `w`. -/
def tableEvent (nbits w : Nat) : Event :=
  let f := wordBytes ((nbits + 7) / 8) w
  if (byteAt f 0).toNat < 0x80 then .cmd ⟨byteAt f 0, zeroOperands (byteAt f 0)⟩
  else .rx (completeFrame f)

/-- The instruction the decoder reads from a table word. -/
def decodeTableWord (nbits w : Nat) : Option Instr :=
  match decodeEvent (tableEvent nbits w) with
  | .ok i => some i
  | .error _ => none

end Sys2Proof
end

