-- ==== Sys2Proof/Machine/State.lean ====
section
/-! DEFINITION. The state of the block (R20 to R45), plain data, with the reasons a step of the MODEL can stop and the
state after reset (R45, R291). The spec's own fault kinds are no stops: they are data of responses and notifications. -/

namespace Sys2Proof.Machine

/-- Why a step of the model stops with a fault. -/
inductive Fault where
  /-- Raised by `RQ.GET` alone: the slot is terminal and holds no result record. R33 (c) rules this out in every state
  that can be reached from reset, so no run meets it. Safe: the model stops where the spec gives nothing to answer. -/
  | resultMissing
deriving DecidableEq, Repr

/-- Why a step of the model is refused. -/
inductive Refusal where
  /-- Raised by an arm of `exec` for an instruction without a meaning. No arm does. Safe. -/
  | notModelled (mnemonic : String)
deriving DecidableEq, Repr

/-- The fault kinds of the block (R260). -/
inductive FaultKind where
  | rangeError | decodeError | checksumMismatch | unsupportedMessageError | timeoutError | cancelledError
  | shapeBusy | badHandle | illegalOp | capacity
deriving DecidableEq, Repr, Inhabited

/-- The request shapes, which name the slots: `read` is slot 0, `ident` is slot 1 (R30). -/
inductive Shape where
  | read | ident
deriving DecidableEq, Repr, Inhabited

/-- The slot states (R32). -/
inductive SlotState where
  | idle | sent | completing | completed | salvaged | timedOut | csumFailed | cancelled
deriving DecidableEq, Repr, Inhabited

/-- A buffered partial response (R31). -/
structure Chunk where
  addr : Digits
  data : List Byte
deriving DecidableEq, Repr, Inhabited

/-- The request a slot holds (R31). `addr` and `size` are the READ shape's; slot 1's are never written (log 14). -/
structure Request where
  dev : BitVec 7
  addr : Digits
  size : Digits
deriving DecidableEq, Repr, Inhabited

/-- A matcher slot (R31). `timeout` is the field `to`, the idle timeout in ticks. -/
structure Slot where
  st : SlotState
  req : Request
  hasTo : Bool
  timeout : BitVec 32
  idle : BitVec 32
  partials : List Chunk
  result : Option ResultRecord
deriving DecidableEq, Repr, Inhabited

/-- A record on the notification port (R270). -/
inductive Notification where
  | resolve (s : Shape) (outcome : RequestOutcome)
  | rxerr (kind : FaultKind)
  | rxmsg (d : DeviceMessage)
deriving DecidableEq, Repr, Inhabited

/-- The response to a command (R70): `tag` says which command since reset it answers (log 9), `st` is the fault code, 0
for no fault (R26, R260), and `results` are the other result slots. -/
structure Response where
  tag : Nat
  st : BitVec 4
  results : ResultSlots
deriving DecidableEq, Repr, Inhabited

/-- A held `RQ.GET` (R247): which command it is, and the slot it waits for. -/
structure HeldGet where
  tag : Nat
  slot : Shape
deriving DecidableEq, Repr, Inhabited

/-- What the outside world does next, in the order the arbiter takes it (R22, R66; log 1): an event, the reset input
(R290), or taking the oldest record from a port (R270; log 12). -/
inductive Input where
  | event (e : Event)
  | resetInput
  | takeTx
  | takeNotification
  | takeResponse
deriving DecidableEq, Repr, Inhabited

/-- The block's state. -/
structure State where
  /-- `slot[0]`, the READ shape (R30). -/
  slot0 : Slot
  /-- `slot[1]`, the IDENT shape (R30). -/
  slot1 : Slot
  /-- Slots with a pending request, oldest registration first (R36). -/
  order : List Shape
  /-- The sticky fault status `FSR` (R41). -/
  fsr : BitVec 12
  /-- Frames on the TX port, oldest first (R42, R66). -/
  tx : List Frame
  /-- Records on the notification port, oldest first (R270). -/
  notes : List Notification
  /-- Responses given on the command port and not yet taken, oldest first (R70; log 9). -/
  responses : List Response
  /-- Commands that hold, oldest first (R247). -/
  held : List HeldGet
  /-- The model's own: how many commands were taken since reset (log 9). -/
  issued : Nat
  /-- The model's own: the counter free values are drawn with (log 7). -/
  free : Nat
  /-- The model's own: what the outside does next, in the order taken (log 1). -/
  inputs : List Input
deriving DecidableEq, Repr, Inhabited

/-- A slot after reset (R31, R45, R291). The request and the timeout are unspecified there; the model names zeros (log
8). -/
def Slot.reset : Slot where
  st := .idle
  req := { dev := 0, addr := [0, 0, 0, 0], size := [0, 0, 0, 0] }
  hasTo := false
  timeout := 0
  idle := 0
  partials := []
  result := none

/-- The block after reset (R45, R291). -/
def State.reset : State where
  slot0 := Slot.reset
  slot1 := Slot.reset
  order := []
  fsr := 0
  tx := []
  notes := []
  responses := []
  held := []
  issued := 0
  free := 0
  inputs := []

end Sys2Proof.Machine
end

