-- ==== Sys2Proof/Machine/Operands.lean ====
section
/-! DEFINITION. The operand forms of the operations and the arithmetic on them: SevenBitValues (R9, R100, R101), the digit
cell and the carry-propagating add (R106, R107), comparison and difference (R110, R111), regions (R53, R125), the checksum
function (R135), the timeout operand (R222) and handles (R220). -/

namespace Sys2Proof.Machine

/-! ### SevenBitValues -/

/-- Digit count `D = W/7` (R6, R100). -/
def digitCount : Width → Nat
  | .w7 => 1
  | .w14 => 2
  | .w28 => 4

/-- The number of values of a width, `2^W` (R100). -/
def widthLimit : Width → Nat
  | .w7 => 2 ^ 7
  | .w14 => 2 ^ 14
  | .w28 => 2 ^ 28

/-- One more than the greatest device address: `2^28` (R51). -/
def addressLimit : Nat := 2 ^ 28

/-- `valid_D(s)`: the length is `D` and every byte is a digit (R9). -/
def validDigits (d : Nat) (s : Digits) : Bool := decide (s.length = d) && s.all isData

/-- `toInt(d)`, most significant digit first (R9). -/
def toInt : Digits → Nat
  | [] => 0
  | b :: ds => b.toNat * 128 ^ ds.length + toInt ds

/-- `digits_D(n)`: element `i` is `(n >> (7*(D-1-i))) & 0x7F` (R9). -/
def digitsOf : Nat → Nat → Digits
  | 0, _ => []
  | d + 1, n => byteOf (n / 128 ^ d % 128) :: digitsOf d n

/-- The digit cell: two digits and a carry in, the sum digit and the carry out (R107). -/
def digitCell (a b : Byte) (c : Bool) : Byte × Bool :=
  let t := a.toNat + b.toNat + (if c then 1 else 0)
  (byteOf (t % 128), decide (128 ≤ t))

/-- One carry-propagating add of two digit sequences of one length, least significant digit first: the sum digits and the
carry out of the most significant digit (R106, R107). -/
def addDigits : Digits → Digits → Digits × Bool
  | a :: as, b :: bs =>
    let low := addDigits as bs
    let cell := digitCell a b low.2
    (cell.1 :: low.1, cell.2)
  | _, _ => ([], false)

/-- `K` adds of `b`; `none` when one of them carries out of the most significant digit (R106). -/
def offsetBy : Nat → Digits → Digits → Option Digits
  | 0, acc, _ => some acc
  | k + 1, acc, b =>
    let t := addDigits acc b
    if t.2 then none else offsetBy k t.1 b

/-- Digit-wise comparison, most significant digit first: 0 equal, 1 less, 2 greater (R110). -/
def compareDigits : Digits → Digits → BitVec 2
  | a :: as, b :: bs =>
    if a.toNat < b.toNat then 1
    else if b.toNat < a.toNat then 2
    else compareDigits as bs
  | _, _ => 0

/-- The magnitude of a difference (R111). -/
def magnitude (m n : Nat) : Nat := if n ≤ m then m - n else n - m

/-! ### Regions -/

/-- The exclusive end of a region, before the check that it can be expressed (R125). -/
def regionEnd (start size : Digits) : Nat := toInt start + toInt size

/-- A region is well formed when its end is below `2^28` (R53). -/
def regionOk (start size : Digits) : Bool := decide (regionEnd start size < addressLimit)

/-- Every address of the `n` from `a` on is a key (R127). -/
def covers (keys : List Nat) (a : Nat) : Nat → Bool
  | 0 => true
  | n + 1 => keys.contains a && covers keys (a + 1) n

/-! ### The checksum function -/

/-- `sum(s)` (R8). -/
def byteSum : List Byte → Nat
  | [] => 0
  | b :: bs => b.toNat + byteSum bs

/-- `cks(addr, payload)` (R135). -/
def checksum (addr payload : List Byte) : Nat :=
  let s := (byteSum addr + byteSum payload) % 128
  if s = 0 then 0 else 128 - s

/-! ### Timeouts and handles -/

/-- The check of `TO`: a declared timeout is at most `2^TW - 2` ticks (R222; log 13). -/
def timeoutOk (t : Timeout) : Bool := !t.has || decide (t.ticks.toNat ≤ 2 ^ 32 - 2)

/-- The slot a handle names (R220). -/
def shapeOfHandle (h : BitVec 1) : Shape := if h = 0 then .read else .ident

/-- The handle of a slot: its index (R220). -/
def handleOf : Shape → BitVec 1
  | .read => 0
  | .ident => 1

end Sys2Proof.Machine
end

