-- ==== Sys2Proof/Machine/Flags.lean ====
section
/-! DEFINITION. The flag-like state: fault codes (R260), the sticky fault register FSR (R41), slot state codes (R32) and the
status register views (R40). The block has no condition codes (R27). -/

namespace Sys2Proof.Machine

/-- The code of a fault kind, which is also the index of its FSR bit (R260). -/
def faultCode : FaultKind → Nat
  | .rangeError => 1
  | .decodeError => 2
  | .checksumMismatch => 3
  | .unsupportedMessageError => 4
  | .timeoutError => 5
  | .cancelledError => 6
  | .shapeBusy => 7
  | .badHandle => 8
  | .illegalOp => 9
  | .capacity => 10

/-- `ST` of a fault kind (R26, R260). -/
def statusOf (k : FaultKind) : BitVec 4 := BitVec.ofNat 4 (faultCode k)

/-- Index of the FSR bit DEGRADED (R41). -/
def degradedBit : Nat := 11

/-- FSR with bit `i` set; bits are never cleared by events (R41). -/
def fsrWith (fsr : BitVec 12) (i : Nat) : BitVec 12 := fsr ||| BitVec.twoPow 12 i

/-- The FSR bit that goes with a request's outcome, when one does: R241 CSUM, R246 TIMEOUT and DEGRADED, R249 CANCEL; a
completed request sets none (R236). -/
def outcomeBit : RequestOutcome → Option Nat
  | .completed => none
  | .salvaged => some degradedBit
  | .timeoutError => some (faultCode .timeoutError)
  | .checksumMismatch => some (faultCode .checksumMismatch)
  | .cancelledError => some (faultCode .cancelledError)

/-- FSR after a request resolves with an outcome. -/
def fsrAfter (fsr : BitVec 12) (o : RequestOutcome) : BitVec 12 :=
  match outcomeBit o with
  | none => fsr
  | some i => fsrWith fsr i

/-- The fault `RQ.GET` reports for an outcome; a salvaged one is a success (R247, R261). -/
def outcomeFault : RequestOutcome → Option FaultKind
  | .completed => none
  | .salvaged => none
  | .timeoutError => some .timeoutError
  | .checksumMismatch => some .checksumMismatch
  | .cancelledError => some .cancelledError

/-- The terminal state an outcome leaves its slot in (R32, R236, R241, R246, R249). -/
def outcomeState : RequestOutcome → SlotState
  | .completed => .completed
  | .salvaged => .salvaged
  | .timeoutError => .timedOut
  | .checksumMismatch => .csumFailed
  | .cancelledError => .cancelled

/-- The code of a slot state (R32). -/
def slotCode : SlotState → Nat
  | .idle => 0
  | .sent => 1
  | .completing => 2
  | .completed => 3
  | .salvaged => 4
  | .timedOut => 5
  | .csumFailed => 6
  | .cancelled => 7

/-- A slot is pending exactly when it is Sent or Completing (R32). -/
def isPending : SlotState → Bool
  | .sent => true
  | .completing => true
  | _ => false

/-- A slot is terminal when its state is 3 to 7 (R32). -/
def isTerminal : SlotState → Bool
  | .idle => false
  | .sent => false
  | .completing => false
  | _ => true

/-- `PEND`: bit `s` is 1 exactly when `slot[s]` is pending (R40). -/
def pendView (s : State) : BitVec 2 :=
  BitVec.ofBool (isPending s.slot1.st) ++ BitVec.ofBool (isPending s.slot0.st)

/-- `SLOTST0`, `SLOTST1`: bits [2:0] the state code, bit 3 `has_to` (R40). -/
def slotView (sl : Slot) : BitVec 4 :=
  BitVec.ofBool sl.hasTo ++ BitVec.ofNat 3 (slotCode sl.st)

/-- The status registers as `SR.READ` reads them, zero-extended to 32 bits; 6 and 7 are reserved (R40, R248). -/
def statusRegister (s : State) (srn : BitVec 3) : Option (BitVec 32) :=
  match srn.toNat with
  | 0 => some (s.fsr.setWidth 32)
  | 1 => some ((pendView s).setWidth 32)
  | 2 => some ((slotView s.slot0).setWidth 32)
  | 3 => some ((slotView s.slot1).setWidth 32)
  | 4 => some s.slot0.idle
  | 5 => some s.slot1.idle
  | _ => none

end Sys2Proof.Machine
end

