-- ==== Sys2Proof/Machine/Ops.lean ====
section
/-! DEFINITION. The named operations over the state: the sparse byte map (R54, R55, R232), slots, ports, taking a fault
(R265 to R267; the block has no trap entry and no return from one), responses and held commands (R70, R247), and the end of
a request (R236, R241, R246, R249). -/

namespace Sys2Proof.Machine

/-! ### The sparse byte map -/

/-- The block's memory: a sparse byte map, its addresses strictly rising. -/
abbrev Memory := SparseMap

/-- What address `k` reads as; an unlisted address reads as absent, never as a value (R54). -/
def Memory.read (m : Memory) (k : Nat) : Option Byte :=
  match m with
  | [] => none
  | (j, b) :: rest => if j = k then some b else Memory.read rest k

/-- The map with byte `b` at key `k`; a key already present is overwritten (R55, D28). -/
def Memory.write (m : Memory) (k : Nat) (b : Byte) : Memory :=
  match m with
  | [] => [(k, b)]
  | (j, c) :: rest =>
    if k < j then (k, b) :: (j, c) :: rest
    else if k = j then (k, b) :: rest
    else (j, c) :: Memory.write rest k b

/-- `data` written at consecutive keys from `k` (R55). -/
def Memory.writeFrom (m : Memory) (k : Nat) (data : List Byte) : Memory :=
  match data with
  | [] => m
  | b :: bs => Memory.writeFrom (Memory.write m k b) (k + 1) bs

/-- The canonical form: addresses strictly rising and inside the 28-bit space (R54). No entry can equal what an unlisted
address reads as, since that is no value. -/
def Memory.wf (m : Memory) : Bool :=
  decide (m.Pairwise fun p q => p.1 < q.1) && m.all fun p => decide (p.1 < addressLimit)

/-- `MapWrite(m, a, data)` (R55). -/
def mapWrite (m : Memory) (a : Digits) (data : List Byte) : Memory := m.writeFrom (toInt a) data

/-- The `n` bytes at keys from `k` on when all are present, absent otherwise: `MapRead` at key `k = toInt(a)` (R55). -/
def mapRead (m : Memory) (k : Nat) : Nat → Option (List Byte)
  | 0 => some []
  | n + 1 =>
    match m.read k, mapRead m (k + 1) n with
    | some b, some bs => some (b :: bs)
    | _, _ => none

/-- `chunkKeys(a, n)` of a chunk (R55). -/
def chunkKeys (c : Chunk) : List Nat := (List.range c.data.length).map (toInt c.addr + ·)

/-- `fold(cs)`, the merge of the READ shape: chunks written into the empty map in arrival order (R232). -/
def foldChunks (cs : List Chunk) : Memory := cs.foldl (fun m c => mapWrite m c.addr c.data) []

/-- The last byte of the chunk lies inside the address space (R235 step 6). -/
def chunkInSpace (c : Chunk) : Bool :=
  decide (c.data.length = 0) || decide (toInt c.addr + c.data.length - 1 < addressLimit)

/-! ### Slots -/

/-- `slot[s]`. -/
def slotOf (s : State) : Shape → Slot
  | .read => s.slot0
  | .ident => s.slot1

/-- `slot[s] <- …`. -/
def setSlot (s : State) (sh : Shape) (sl : Slot) : State :=
  match sh with
  | .read => { s with slot0 := sl }
  | .ident => { s with slot1 := sl }

/-! ### Ports and faults -/

/-- The answer of a meaning. -/
abbrev Answer := Host.Outcome State Fault Refusal

/-- `emit TX(f)` (R10, R66). -/
def emitTx (f : Frame) (s : State) : State := { s with tx := s.tx ++ [f] }

/-- `notify n` (R10, R270). -/
def notify (n : Notification) (s : State) : State := { s with notes := s.notes ++ [n] }

/-- The sticky bit of a fault (R41, R266). -/
def recordFault (k : FaultKind) (s : State) : State := { s with fsr := fsrWith s.fsr (faultCode k) }

/-- The response of a command that ends without a fault (R26, R70). -/
def respond (r : ResultSlots) (s : State) : State :=
  { s with responses := s.responses ++ [⟨s.issued, 0, r⟩], issued := s.issued + 1 }

/-- TAKING A FAULT: the one shared operation by which a command faults. The response carries the fault's code, its other
result slots are undefined (U9: a free value), the sticky bit is set and nothing else changes (R265 to R267). -/
def raiseFault (k : FaultKind) (s : State) : State :=
  { recordFault k s with
    responses := s.responses ++ [⟨s.issued, statusOf k, Config.undefinedResults s.free⟩]
    issued := s.issued + 1
    free := s.free + 1 }

/-- A fault of an `EV.RX` event: its sticky bit and `RXERR(kind)` (R239, R240, R242, R265). -/
def rxError (k : FaultKind) (s : State) : State := notify (.rxerr k) (recordFault k s)

/-- The answer of an operation that only computes: its result slots, or its fault. -/
def answer (r : Except FaultKind ResultSlots) (s : State) : Answer :=
  match r with
  | .ok slots => .next (respond slots s)
  | .error k => .next (raiseFault k s)

/-- A command the decoder refuses: `IllegalOp`, whatever the reason (R72). -/
def refuseCommand (_ : Rejection) (s : State) : State := raiseFault .illegalOp s

/-! ### The outcome of a request -/

/-- The response of `RQ.GET` to command `tag` (R247): a failing outcome reports its fault, sets its sticky bit and still
carries the result record; the other slots are then undefined (U9). -/
def answerGet (tag : Nat) (r : ResultRecord) (s : State) : State :=
  match outcomeFault r.outcome with
  | none => { s with responses := s.responses ++ [⟨tag, 0, { rres := some r }⟩] }
  | some k =>
    { recordFault k s with
      responses := s.responses ++
        [⟨tag, statusOf k, { Config.undefinedResults s.free with rres := some r }⟩]
      free := s.free + 1 }

/-- A command taken from the command port whose response is given otherwise. -/
def countCommand (s : State) : State := { s with issued := s.issued + 1 }

/-- `hold`: the command waits (R10, R247). -/
def holdGet (sh : Shape) (s : State) : State :=
  { s with held := s.held ++ [⟨s.issued, sh⟩], issued := s.issued + 1 }

/-- Every held `RQ.GET` of the slot completes with the slot's result (R247; log 10). -/
def releaseHeld (sh : Shape) (r : ResultRecord) (s : State) : State :=
  (s.held.filter fun h => h.slot = sh).foldl (fun t h => answerGet h.tag r t)
    { s with held := s.held.filter fun h => h.slot ≠ sh }

/-- The slot leaves the pending states with result `r`: R236, R241, R246, R249 in one. -/
def settle (sh : Shape) (r : ResultRecord) (s : State) : State :=
  let sl := slotOf s sh
  let t := setSlot s sh { sl with st := outcomeState r.outcome, partials := [], result := some r }
  notify (.resolve sh r.outcome)
    { t with order := s.order.filter (· ≠ sh), fsr := fsrAfter s.fsr r.outcome }

/-- The end of a request: the slot is settled and the commands that waited for it complete in the same event (R247). -/
def resolve (sh : Shape) (r : ResultRecord) (s : State) : State := releaseHeld sh r (settle sh r s)

/-- The result record of a request that ends without data: TimeoutError, ChecksumMismatch or CancelledError (R241, R246,
R249). -/
def emptyResult (o : RequestOutcome) : ResultRecord := { outcome := o, degraded := false, map := [], ident := none }

/-- The result record of a completed read (R236). -/
def readResult (m : Memory) : ResultRecord := { outcome := .completed, degraded := false, map := m, ident := none }

/-- The result record of a salvaged read (R246). -/
def salvagedResult (m : Memory) : ResultRecord := { outcome := .salvaged, degraded := true, map := m, ident := none }

/-- The result record of a completed identity request (R236). -/
def identResult (r : IdentityReply) : ResultRecord :=
  { outcome := .completed, degraded := false, map := [], ident := some r }

/-- Registration of a request and emission of its frame, in one event and in this order (R224 to R226). -/
def registerRequest (sh : Shape) (req : Request) (t : Timeout) (f : Frame) (s : State) : State :=
  let sl : Slot :=
    { st := .sent, req := req, hasTo := t.has, timeout := t.ticks, idle := 0, partials := [], result := none }
  emitTx f { setSlot s sh sl with order := s.order ++ [sh] }

/-! ### What the outside does beside events -/

/-- The reset input: the reset state, except for what the outside still does and the source of free values (R290; log
11). -/
def applyReset (s : State) : State := { State.reset with inputs := s.inputs, free := s.free }

/-- The channel takes the oldest frame from the TX port (R66, R292; log 12). -/
def takeTx (s : State) : State := { s with tx := s.tx.drop 1 }

/-- The host takes the oldest record from the notification port (R270; log 12). -/
def takeNotification (s : State) : State := { s with notes := s.notes.drop 1 }

/-- A caller takes the oldest response (R70; log 12). -/
def takeResponse (s : State) : State := { s with responses := s.responses.drop 1 }

/-- `s` with `inputs` still to come. -/
def withInputs (inputs : List Input) (s : State) : State := { s with inputs := inputs }

end Sys2Proof.Machine
end

