-- ==== Sys2Proof/Machine/Adder.lean ====
section
/-! DEFINITION. The adder unit: `SB.*` (40_sevenbit.md). -/

namespace Sys2Proof.Machine

/-- `SB.FROMINT` (R102). -/
def execSbFromint (w : Width) (n : BitVec 32) (s : State) : Answer :=
  answer
    (if widthLimit w ≤ n.toNat then .error .rangeError
     else .ok { r := some (digitsOf (digitCount w) n.toNat) }) s

/-- `SB.TOINT` (R103). -/
def execSbToint (w : Width) (a : Digits) (s : State) : Answer :=
  answer
    (if !validDigits (digitCount w) a then .error .rangeError
     else .ok { rn := some (BitVec.ofNat 32 (toInt a)) }) s

/-- `SB.TOBYTES` (R104). -/
def execSbTobytes (w : Width) (a : Digits) (s : State) : Answer :=
  answer
    (if !validDigits (digitCount w) a then .error .rangeError
     else .ok { rbuf := some a }) s

/-- `SB.FROMBYTES` (R105). -/
def execSbFrombytes (w : Width) (buf : Frame) (s : State) : Answer :=
  answer
    (if buf.length ≠ digitCount w then .error .rangeError
     else if !buf.all isData then .error .rangeError
     else .ok { r := some buf }) s

/-- `SB.OFFSETBY`, the carry-propagating add repeated `K` times (R106). -/
def execSbOffsetby (w : Width) (a b : Digits) (k : BitVec 16) (s : State) : Answer :=
  answer
    (if !(validDigits (digitCount w) a && validDigits (digitCount w) b) then .error .rangeError
     else match offsetBy k.toNat a b with
       | none => .error .rangeError
       | some acc => .ok { r := some acc }) s

/-- `SB.CMP` (R110). -/
def execSbCmp (w : Width) (a b : Digits) (s : State) : Answer :=
  answer
    (if !(validDigits (digitCount w) a && validDigits (digitCount w) b) then .error .rangeError
     else .ok { rc := some (compareDigits a b) }) s

/-- `SB.DIFF` (R111). -/
def execSbDiff (w : Width) (a b : Digits) (s : State) : Answer :=
  answer
    (if !(validDigits (digitCount w) a && validDigits (digitCount w) b) then .error .rangeError
     else .ok { r := some (digitsOf (digitCount w) (magnitude (toInt a) (toInt b))) }) s

end Sys2Proof.Machine
end

