-- ==== Sys2Proof/Machine/Address.lean ====
section
/-! DEFINITION. The address unit: `DS.*` and `RG.*` (41_address_size.md). -/

namespace Sys2Proof.Machine

/-- `DS.ADDI` (R123). -/
def execDsAddi (a : Digits) (n : BitVec 32) (s : State) : Answer :=
  answer
    (if !validDigits 4 a then .error .rangeError
     else if addressLimit ≤ toInt a + n.toNat then .error .rangeError
     else .ok { r := some (digitsOf 4 (toInt a + n.toNat)) }) s

/-- `DS.SUBI` (R124). -/
def execDsSubi (a : Digits) (n : BitVec 32) (s : State) : Answer :=
  answer
    (if !validDigits 4 a then .error .rangeError
     else if toInt a < n.toNat then .error .rangeError
     else .ok { r := some (digitsOf 4 (toInt a - n.toNat)) }) s

/-- `RG.CONTAINS` (R126). -/
def execRgContains (a b x : Digits) (s : State) : Answer :=
  answer
    (if !(validDigits 4 a && validDigits 4 b && validDigits 4 x) then .error .rangeError
     else if !regionOk a b then .error .rangeError
     else .ok { rb := some (decide (toInt a ≤ toInt x) && decide (toInt x < regionEnd a b)) }) s

/-- `RG.COVERED` (R127). -/
def execRgCovered (a b : Digits) (map : List Nat) (s : State) : Answer :=
  answer
    (if !(validDigits 4 a && validDigits 4 b) then .error .rangeError
     else if !regionOk a b then .error .rangeError
     else .ok { rb := some (covers map (toInt a) (toInt b)) }) s

end Sys2Proof.Machine
end

