-- ==== Sys2Proof/Machine/Checksum.lean ====
section
/-! DEFINITION. The checksum engine: `CS.*` (42_checksum.md). -/

namespace Sys2Proof.Machine

/-- `CS.COMPUTE` (R136). -/
def execCsCompute (a : Digits) (buf : Frame) (s : State) : Answer :=
  answer
    (if !(validDigits 4 a && buf.all isData) then .error .rangeError
     else .ok { rcs := some (BitVec.ofNat 7 (checksum a buf)) }) s

/-- `CS.VERIFY` (R138). -/
def execCsVerify (a : Digits) (buf : Frame) (csb : Byte) (s : State) : Answer :=
  answer
    (if !(validDigits 4 a && buf.all isData && isData csb) then .error .rangeError
     else if checksum a buf ≠ csb.toNat then .error .checksumMismatch
     else .ok { rb := some true }) s

end Sys2Proof.Machine
end

