-- ==== Sys2Proof/Machine/Codec.lean ====
section
/-! DEFINITION. The codec unit's operations: `MC.*` (43_codec_channel_system.md) and `DX.*` (44_codec_sysex.md). -/

namespace Sys2Proof.Machine

/-- The frame of a message, or why there is none: the checks of `MC.ENCODE` (R153, U5). -/
def encodeChecked (m : MidiMessage) : Except FaultKind Frame :=
  if !messageValid m then .error .rangeError
  else if Config.frameMax < (encodeMessage m).length then .error .capacity
  else .ok (encodeMessage m)

/-- What a builder returns: the message and its frame (R210 to R212). -/
def builderSlots (m : MidiMessage) : ResultSlots :=
  { rmsg := some (.midi m), rbuf := some (encodeMessage m) }

/-- The message `DX.MKRQ1` builds (R211). -/
def readRequestFor (dev : Byte) (a b : Digits) : MidiMessage :=
  readRequestMessage dev a b (byteOf (checksum a b))

/-- The message `DX.MKDT1` builds (R212). -/
def dataSetFor (dev : Byte) (a : Digits) (data : List Byte) : MidiMessage :=
  dataSetMessage dev a data (byteOf (checksum a data))

/-- `MC.DECODE` (R152). -/
def execMcDecode (buf : Frame) (s : State) : Answer :=
  answer
    (match decodeFrame buf with
     | .error _ => .error .decodeError
     | .ok m => .ok { rmsg := some (.midi m) }) s

/-- `MC.ENCODE` (R153). -/
def execMcEncode (msg : MidiMessage) (s : State) : Answer :=
  answer
    (match encodeChecked msg with
     | .error k => .error k
     | .ok f => .ok { rbuf := some f }) s

/-- `DX.NARROW` (R205). -/
def execDxNarrow (msg : MidiMessage) (s : State) : Answer :=
  answer
    (match narrow msg with
     | none => .error .unsupportedMessageError
     | some d => .ok { rmsg := some (.device d) }) s

/-- `DX.MKIDREQ` (R210). -/
def execDxMkidreq (dev : Byte) (s : State) : Answer :=
  answer
    (if !isData dev then .error .rangeError
     else .ok (builderSlots (identityRequestMessage dev))) s

/-- `DX.MKRQ1` (R211). -/
def execDxMkrq1 (dev : Byte) (a b : Digits) (s : State) : Answer :=
  answer
    (if !isData dev then .error .rangeError
     else if !(validDigits 4 a && validDigits 4 b) then .error .rangeError
     else .ok (builderSlots (readRequestFor dev a b))) s

/-- `DX.MKDT1` (R212). -/
def execDxMkdt1 (dev : Byte) (a : Digits) (buf : Frame) (s : State) : Answer :=
  answer
    (if !isData dev then .error .rangeError
     else if !(validDigits 4 a && buf.all isData) then .error .rangeError
     else if Config.frameMax < 13 + buf.length then .error .capacity
     else .ok (builderSlots (dataSetFor dev a buf))) s

end Sys2Proof.Machine
end

