-- ==== Sys2Proof/Machine/Receive.lean ====
section
/-! DEFINITION. The shared operations of the matcher's two events: the steps of `EV.RX` (R230 to R242) and of `EV.TICK`
(R244 to R246). `cap` stands for `MAP_CAP`; the meanings pass `Config.mapCap`. -/

namespace Sys2Proof.Machine

/-- `accepts(s, d)`: by shape alone (R230, R253). -/
def acceptsMessage : Shape → DeviceMessage → Bool
  | .read, .dataSet _ _ _ _ => true
  | .ident, .identityReply _ => true
  | _, _ => false

/-- The slot an inbound response belongs to: the first of `order` that accepts it (R235 step 4). -/
def matchSlot (d : DeviceMessage) (s : State) : Option Shape := s.order.find? fun sh => acceptsMessage sh d

/-- The addresses a chunk sequence brings (R231). -/
def coverage (cs : List Chunk) : List Nat := cs.flatMap chunkKeys

/-- `isComplete(0, d)`: the cumulative coverage holds the requested region (R231). -/
def isComplete (req : Request) (cs : List Chunk) : Bool :=
  covers (coverage cs) (toInt req.addr) (toInt req.size)

/-- The chunk is buffered as a partial (R238). -/
def bufferPartial (sh : Shape) (c : Chunk) (s : State) : State :=
  let sl := slotOf s sh
  setSlot s sh { sl with partials := sl.partials ++ [c], idle := 0, st := .completing }

/-- Steps 5 to 8 of `EV.RX` for a DataSet that slot `sh` accepts: checksum, range, capacity, coverage (R235). -/
def receiveChunk (cap : Nat) (sh : Shape) (c : Chunk) (reported : Byte) (s : State) : State :=
  let sl := slotOf s sh
  let cs := sl.partials ++ [c]
  if checksum c.addr c.data ≠ reported.toNat then resolve sh (emptyResult .checksumMismatch) s
  else if !chunkInSpace c then rxError .rangeError s
  else if cap < (foldChunks cs).length then rxError .capacity s
  else if isComplete sl.req cs then resolve sh (readResult (foldChunks cs)) s
  else bufferPartial sh c s

/-- Steps 3 to 8 of `EV.RX`: a narrowed message goes to the slot that accepts it, every other one to the host (R235, R237,
R272). An IdentityReply completes its request at once (R231). -/
def deliver (cap : Nat) (d : DeviceMessage) (s : State) : State :=
  match d, matchSlot d s with
  | .dataSet _ addr data c, some sh => receiveChunk cap sh ⟨addr, data⟩ c s
  | .identityReply r, some sh => resolve sh (identResult r) s
  | _, _ => notify (.rxmsg d) s

/-- Steps 2 to 8 of `EV.RX` (R235, R239). -/
def receiveMessage (cap : Nat) (m : MidiMessage) (s : State) : State :=
  match narrow m with
  | none => rxError .unsupportedMessageError s
  | some d => deliver cap d s

/-- All steps of `EV.RX(frame)` (R235, R239). -/
def receiveFrame (cap : Nat) (f : Frame) (s : State) : State :=
  match decodeFrame f with
  | .error _ => rxError .decodeError s
  | .ok m => receiveMessage cap m s

/-- `expire(s)` (R246). -/
def expire (sh : Shape) (s : State) : State :=
  let sl := slotOf s sh
  if sl.partials = [] then resolve sh (emptyResult .timeoutError) s
  else resolve sh (salvagedResult (foldChunks sl.partials)) s

/-- One more tick, saturating at `2^TW - 1` (R31, R244). -/
def idleNext (idle : BitVec 32) : BitVec 32 := if idle.toNat < 2 ^ 32 - 1 then idle + 1 else idle

/-- The body of `EV.TICK` for one slot (R244). -/
def tickSlot (sh : Shape) (s : State) : State :=
  let sl := slotOf s sh
  if isPending sl.st && sl.hasTo then
    let idle := idleNext sl.idle
    let t := setSlot s sh { sl with idle := idle }
    if sl.timeout.toNat < idle.toNat then expire sh t else t
  else s

end Sys2Proof.Machine
end

