-- ==== Sys2Proof/Machine/Matcher.lean ====
section
/-! DEFINITION. The matcher's operations `RQ.*`, the status read `SR.READ`, and the two events `EV.RX` and `EV.TICK`
(45_matcher.md). -/

namespace Sys2Proof.Machine

/-- `RQ.SENDU` (R221). -/
def execRqSendu (msg : MidiMessage) (s : State) : Answer :=
  match encodeChecked msg with
  | .error k => .next (raiseFault k s)
  | .ok f => .next (respond {} (emitTx f s))

/-- `RQ.SENDR.READ` (R222 to R224, R226). -/
def execRqSendrRead (dev : Byte) (a b : Digits) (t : Timeout) (s : State) : Answer :=
  if !isData dev then .next (raiseFault .rangeError s)
  else if !(validDigits 4 a && validDigits 4 b) then .next (raiseFault .rangeError s)
  else if !regionOk a b then .next (raiseFault .rangeError s)
  else if !timeoutOk t then .next (raiseFault .rangeError s)
  else if isPending s.slot0.st then .next (raiseFault .shapeBusy s)
  else
    .next (respond { rh := some (handleOf .read) }
      (registerRequest .read { dev := dev.setWidth 7, addr := a, size := b } t
        (encodeMessage (readRequestFor dev a b)) s))

/-- `RQ.SENDR.IDENT` (R222, R223, R225, R226). -/
def execRqSendrIdent (dev : Byte) (t : Timeout) (s : State) : Answer :=
  if !isData dev then .next (raiseFault .rangeError s)
  else if !timeoutOk t then .next (raiseFault .rangeError s)
  else if isPending s.slot1.st then .next (raiseFault .shapeBusy s)
  else
    .next (respond { rh := some (handleOf .ident) }
      (registerRequest .ident { s.slot1.req with dev := dev.setWidth 7 } t
        (encodeMessage (identityRequestMessage dev)) s))

/-- `RQ.GET` (R247): refused on an Idle slot, held on a pending one, answered on a terminal one. -/
def execRqGet (h : BitVec 1) (s : State) : Answer :=
  let sh := shapeOfHandle h
  let sl := slotOf s sh
  if sl.st = .idle then .next (raiseFault .badHandle s)
  else if isPending sl.st then .next (holdGet sh s)
  else
    match sl.result with
    | none => .fault .resultMissing
    | some r => .next (countCommand (answerGet s.issued r s))

/-- `RQ.CANCEL` (R249). -/
def execRqCancel (h : BitVec 1) (s : State) : Answer :=
  let sh := shapeOfHandle h
  if !isPending (slotOf s sh).st then .next (raiseFault .badHandle s)
  else .next (respond {} (resolve sh (emptyResult .cancelledError) s))

/-- `SR.READ` (R248). -/
def execSrRead (srn : BitVec 3) (s : State) : Answer :=
  match statusRegister s srn with
  | none => .next (raiseFault .illegalOp s)
  | some v => .next (respond { rsr := some v } s)

/-- `EV.RX(frame)` (R235). -/
def execEvRx (frame : Frame) (s : State) : Answer := .next (receiveFrame Config.mapCap frame s)

/-- `EV.TICK`: slot 0, then slot 1 (R244, R274). -/
def execEvTick (s : State) : Answer := .next (tickSlot .ident (tickSlot .read s))

end Sys2Proof.Machine
end

