-- ==== Sys2Proof/Machine/Wire.lean ====
section
/-! DEFINITION. The wire rows of the opcode table. A wire variant has no op code: what the block does with it is `EV.RX`
of its frame (R235), so the meaning of a row is the arrival of that message, from step 2 for a MidiMessage and from step 3
for a device message (R83, R92; log 4). Every message that is not consumed by the matcher surfaces to the host (R272). -/

namespace Sys2Proof.Machine

/-- A NoteOff frame arrives (R156). -/
def execNoteOff (channel : BitVec 4) (key velocity : BitVec 7) (s : State) : Answer :=
  .next (receiveMessage Config.mapCap (.noteOff channel.toNat key.toNat velocity.toNat) s)

/-- A NoteOn frame arrives (R157). -/
def execNoteOn (channel : BitVec 4) (key velocity : BitVec 7) (s : State) : Answer :=
  .next (receiveMessage Config.mapCap (.noteOn channel.toNat key.toNat velocity.toNat) s)

/-- A PolyKeyPressure frame arrives (R158). -/
def execPolyKeyPressure (channel : BitVec 4) (key pressure : BitVec 7) (s : State) : Answer :=
  .next (receiveMessage Config.mapCap (.polyKeyPressure channel.toNat key.toNat pressure.toNat) s)

/-- A ControlChange frame arrives (R159). -/
def execControlChange (channel : BitVec 4) (controller value : BitVec 7) (s : State) : Answer :=
  .next (receiveMessage Config.mapCap (.controlChange channel.toNat controller.toNat value.toNat) s)

/-- A ChannelMode frame arrives (R160). -/
def execChannelMode (channel : BitVec 4) (kind : ChannelModeKind) (value : BitVec 7) (s : State) : Answer :=
  .next (receiveMessage Config.mapCap (.channelMode channel.toNat kind value.toNat) s)

/-- A ProgramChange frame arrives (R162). -/
def execProgramChange (channel : BitVec 4) (program : BitVec 7) (s : State) : Answer :=
  .next (receiveMessage Config.mapCap (.programChange channel.toNat program.toNat) s)

/-- A ChannelPressure frame arrives (R163). -/
def execChannelPressure (channel : BitVec 4) (pressure : BitVec 7) (s : State) : Answer :=
  .next (receiveMessage Config.mapCap (.channelPressure channel.toNat pressure.toNat) s)

/-- A PitchBend frame arrives (R161). -/
def execPitchBend (channel : BitVec 4) (bend : Int) (s : State) : Answer :=
  .next (receiveMessage Config.mapCap (.pitchBend channel.toNat bend) s)

/-- A TimeCode frame arrives (R165). -/
def execTimeCode (msgType : BitVec 3) (value : BitVec 4) (s : State) : Answer :=
  .next (receiveMessage Config.mapCap (.timeCode msgType.toNat value.toNat) s)

/-- A SongPositionPointer frame arrives (R166). -/
def execSongPositionPointer (position : BitVec 14) (s : State) : Answer :=
  .next (receiveMessage Config.mapCap (.songPositionPointer position.toNat) s)

/-- A SongSelect frame arrives (R167). -/
def execSongSelect (song : BitVec 7) (s : State) : Answer :=
  .next (receiveMessage Config.mapCap (.songSelect song.toNat) s)

/-- A TuneRequest frame arrives (R168). -/
def execTuneRequest (s : State) : Answer :=
  .next (receiveMessage Config.mapCap (.tuneRequest) s)

/-- A Clock frame arrives (R170). -/
def execClock (s : State) : Answer :=
  .next (receiveMessage Config.mapCap (.clock) s)

/-- A Start frame arrives (R171). -/
def execStart (s : State) : Answer :=
  .next (receiveMessage Config.mapCap (.start) s)

/-- A Continue frame arrives (R172). -/
def execContinueMsg (s : State) : Answer :=
  .next (receiveMessage Config.mapCap (.continueMsg) s)

/-- A Stop frame arrives (R173). -/
def execStop (s : State) : Answer :=
  .next (receiveMessage Config.mapCap (.stop) s)

/-- A ActiveSensing frame arrives (R174: the block keeps no sensing timer). -/
def execActiveSensing (s : State) : Answer :=
  .next (receiveMessage Config.mapCap (.activeSensing) s)

/-- A Reset frame arrives (R175: it does not reset the block). -/
def execReset (s : State) : Answer :=
  .next (receiveMessage Config.mapCap (.reset) s)

/-- A SysExUniversalRealtime frame arrives (R192). -/
def execSysExUniversalRealtime (deviceId : Byte) (payload : List Byte) (s : State) : Answer :=
  .next (receiveMessage Config.mapCap (.sysExUniversalRealtime deviceId payload) s)

/-- A SysExUniversalNonRealtime frame arrives (R193). -/
def execSysExUniversalNonRealtime (deviceId : Byte) (payload : List Byte) (s : State) : Answer :=
  .next (receiveMessage Config.mapCap (.sysExUniversalNonRealtime deviceId payload) s)

/-- A SysExManufacturer frame arrives (R194). -/
def execSysExManufacturer (id payload : List Byte) (s : State) : Answer :=
  .next (receiveMessage Config.mapCap (.sysExManufacturer id payload) s)

/-- An Identity-Request frame arrives (R206, R272). -/
def execIdentityRequest (deviceId : Byte) (s : State) : Answer :=
  .next (deliver Config.mapCap (.identityRequest deviceId) s)

/-- An Identity-Reply frame arrives (R207, R235). -/
def execIdentityReply (deviceId manufacturer : Byte) (family number rev : List Byte) (s : State) : Answer :=
  .next (deliver Config.mapCap (.identityReply (mkIdentityReply deviceId manufacturer family number rev)) s)

/-- A ReadRequest frame arrives (R208, R272). -/
def execReadRequest (deviceId : Byte) (address size : Digits) (checksum : Byte) (s : State) : Answer :=
  .next (deliver Config.mapCap (.readRequest deviceId address size checksum) s)

/-- A DataSet frame arrives (R209, R235). -/
def execDataSet (deviceId : Byte) (address : Digits) (data : List Byte) (checksum : Byte) (s : State) : Answer :=
  .next (deliver Config.mapCap (.dataSet deviceId address data checksum) s)

end Sys2Proof.Machine
end

