-- ==== Sys2Proof/Machine/Dispatch.lean ====
section
/-! DEFINITION. One arm per row of the opcode table; each arm is a direct call of the row's meaning. -/

namespace Sys2Proof.Machine

def exec (i : Instr) (s : State) : Host.Outcome State Fault Refusal :=
  match i with
  | .sbFromint w n => Sys2Proof.Machine.execSbFromint w n s
  | .sbToint w a => Sys2Proof.Machine.execSbToint w a s
  | .sbTobytes w a => Sys2Proof.Machine.execSbTobytes w a s
  | .sbFrombytes w buf => Sys2Proof.Machine.execSbFrombytes w buf s
  | .sbOffsetby w a b k => Sys2Proof.Machine.execSbOffsetby w a b k s
  | .sbCmp w a b => Sys2Proof.Machine.execSbCmp w a b s
  | .sbDiff w a b => Sys2Proof.Machine.execSbDiff w a b s
  | .dsAddi a n => Sys2Proof.Machine.execDsAddi a n s
  | .dsSubi a n => Sys2Proof.Machine.execDsSubi a n s
  | .rgContains a b x => Sys2Proof.Machine.execRgContains a b x s
  | .rgCovered a b map => Sys2Proof.Machine.execRgCovered a b map s
  | .csCompute a buf => Sys2Proof.Machine.execCsCompute a buf s
  | .csVerify a buf csb => Sys2Proof.Machine.execCsVerify a buf csb s
  | .mcDecode buf => Sys2Proof.Machine.execMcDecode buf s
  | .mcEncode msg => Sys2Proof.Machine.execMcEncode msg s
  | .dxNarrow msg => Sys2Proof.Machine.execDxNarrow msg s
  | .dxMkidreq dev => Sys2Proof.Machine.execDxMkidreq dev s
  | .dxMkrq1 dev a b => Sys2Proof.Machine.execDxMkrq1 dev a b s
  | .dxMkdt1 dev a buf => Sys2Proof.Machine.execDxMkdt1 dev a buf s
  | .rqSendu msg => Sys2Proof.Machine.execRqSendu msg s
  | .rqSendrRead dev a b timeout => Sys2Proof.Machine.execRqSendrRead dev a b timeout s
  | .rqSendrIdent dev timeout => Sys2Proof.Machine.execRqSendrIdent dev timeout s
  | .rqGet h => Sys2Proof.Machine.execRqGet h s
  | .rqCancel h => Sys2Proof.Machine.execRqCancel h s
  | .srRead srn => Sys2Proof.Machine.execSrRead srn s
  | .evRx frame => Sys2Proof.Machine.execEvRx frame s
  | .evTick => Sys2Proof.Machine.execEvTick s
  | .noteOff channel key velocity => Sys2Proof.Machine.execNoteOff channel key velocity s
  | .noteOn channel key velocity => Sys2Proof.Machine.execNoteOn channel key velocity s
  | .polyKeyPressure channel key pressure => Sys2Proof.Machine.execPolyKeyPressure channel key pressure s
  | .controlChange channel controller value => Sys2Proof.Machine.execControlChange channel controller value s
  | .channelMode channel kind value => Sys2Proof.Machine.execChannelMode channel kind value s
  | .programChange channel program => Sys2Proof.Machine.execProgramChange channel program s
  | .channelPressure channel pressure => Sys2Proof.Machine.execChannelPressure channel pressure s
  | .pitchBend channel bend => Sys2Proof.Machine.execPitchBend channel bend s
  | .timeCode msgType value => Sys2Proof.Machine.execTimeCode msgType value s
  | .songPositionPointer position => Sys2Proof.Machine.execSongPositionPointer position s
  | .songSelect song => Sys2Proof.Machine.execSongSelect song s
  | .tuneRequest => Sys2Proof.Machine.execTuneRequest s
  | .clock => Sys2Proof.Machine.execClock s
  | .start => Sys2Proof.Machine.execStart s
  | .continueMsg => Sys2Proof.Machine.execContinueMsg s
  | .stop => Sys2Proof.Machine.execStop s
  | .activeSensing => Sys2Proof.Machine.execActiveSensing s
  | .reset => Sys2Proof.Machine.execReset s
  | .sysExUniversalRealtime deviceId payload => Sys2Proof.Machine.execSysExUniversalRealtime deviceId payload s
  | .sysExUniversalNonRealtime deviceId payload => Sys2Proof.Machine.execSysExUniversalNonRealtime deviceId payload s
  | .sysExManufacturer id payload => Sys2Proof.Machine.execSysExManufacturer id payload s
  | .identityRequest deviceId => Sys2Proof.Machine.execIdentityRequest deviceId s
  | .identityReply deviceId manufacturer family number rev => Sys2Proof.Machine.execIdentityReply deviceId manufacturer family number rev s
  | .readRequest deviceId address size checksum => Sys2Proof.Machine.execReadRequest deviceId address size checksum s
  | .dataSet deviceId address data checksum => Sys2Proof.Machine.execDataSet deviceId address data checksum s

end Sys2Proof.Machine
end

