-- ==== Sys2Proof/Machine/Step.lean ====
section
/-! DEFINITION. One step of the block: the next input in the arbiter's order is taken and run to its end (R22, R66). -/

namespace Sys2Proof.Machine

/-- One step. With nothing to do the block does nothing (R23; log 2). An event is decoded to its instruction and executed; a
command that does not decode is `IllegalOp` (R72). -/
def step (s : State) : Host.Outcome State Fault Refusal :=
  match s.inputs with
  | [] => .next s
  | .event e :: rest =>
    match decodeEvent e with
    | .ok i => exec i (withInputs rest s)
    | .error r => .next (refuseCommand r (withInputs rest s))
  | .resetInput :: rest => .next (applyReset (withInputs rest s))
  | .takeTx :: rest => .next (takeTx (withInputs rest s))
  | .takeNotification :: rest => .next (takeNotification (withInputs rest s))
  | .takeResponse :: rest => .next (takeResponse (withInputs rest s))

/-- `s` with the instruction of a table word as the very next input (log 3, log 16). The block has no program: this stands
for a command that a caller issues, or a frame that the channel delivers. -/
def State.withFetchWord (s : State) (nbits w : Nat) : State :=
  { s with inputs := .event (tableEvent nbits w) :: s.inputs }

end Sys2Proof.Machine
end

