-- ==== Sys2Proof/Safety.lean ====
section
/-! DEFINITION. What claims about the block say of it: the slot invariants of R33 with what R34, R36, R41 and R222 add, the
transitions of R250, the capacity bound of R54, and the outcomes of a step that are no stop. -/

namespace Sys2Proof.Machine

/-- A buffered chunk: four address digits, clean data, inside the address space (R33 (e), R191, R240). -/
def chunkOk (c : Chunk) : Bool := validDigits 4 c.addr && c.data.all isData && chunkInSpace c

/-- A result record: `degraded` exactly when salvaged (R34), the map in canonical form (R54). -/
def resultOk (r : ResultRecord) : Bool :=
  decide (r.degraded = decide (r.outcome = .salvaged)) && Memory.wf r.map

/-- What the slot's state says of `partials` and `result`: R33 (a) to (c), and R45 for a slot without a request. -/
def stateOk (sl : Slot) : Bool :=
  match sl.st with
  | .idle => decide (sl.partials = []) && decide (sl.result = none) && !sl.hasTo
  | .sent => decide (sl.partials = []) && decide (sl.result = none)
  | .completing => !decide (sl.partials = []) && decide (sl.result = none)
  | st =>
    decide (sl.partials = []) &&
    match sl.result with
    | none => false
    | some r => decide (outcomeState r.outcome = st) && resultOk r

/-- The slot's request and timeout: R33 (e), R222, and a pending slot that has not expired (R244, R245). -/
def requestOk (sl : Slot) : Bool :=
  validDigits 4 sl.req.addr && validDigits 4 sl.req.size && regionOk sl.req.addr sl.req.size &&
  (!sl.hasTo || decide (sl.timeout.toNat ≤ 2 ^ 32 - 2)) &&
  (!(isPending sl.st && sl.hasTo) || decide (sl.idle.toNat ≤ sl.timeout.toNat))

/-- A slot of any shape. -/
def slotOk (sl : Slot) : Bool := stateOk sl && requestOk sl && sl.partials.all chunkOk

/-- What holds of slot 1 alone: Completing and Salvaged are unreachable (R250), and its result has no map (R34). -/
def identSlotOk (sl : Slot) : Bool :=
  decide (sl.st ≠ .completing) && decide (sl.st ≠ .salvaged) &&
  match sl.result with
  | none => true
  | some r => decide (r.map = []) && decide (r.ident.isSome = decide (r.outcome = .completed))

/-- What holds of slot 0 alone: its result has no identity record (R34). -/
def readSlotOk (sl : Slot) : Bool :=
  match sl.result with
  | none => true
  | some r => decide (r.ident = none)

/-- `order` holds exactly the pending slots, each once (R33 (d), R36). -/
def orderOk (s : State) : Bool :=
  decide s.order.Nodup &&
  decide ((Shape.read ∈ s.order) ↔ isPending s.slot0.st = true) &&
  decide ((Shape.ident ∈ s.order) ↔ isPending s.slot1.st = true)

/-- A command holds only while its slot is pending (R247). -/
def heldOk (s : State) : Bool := s.held.all fun h => isPending (slotOf s h.slot).st

/-- The invariant of the block: R33, with R34, R36, R41 (bit 0 of FSR is hardwired 0), R222 and R247. -/
def inv (s : State) : Bool :=
  slotOk s.slot0 && slotOk s.slot1 && readSlotOk s.slot0 && identSlotOk s.slot1 &&
  orderOk s && heldOk s && decide (s.fsr.getLsbD 0 = false)

/-- No slot holds more than `MAP_CAP` keys, buffered or in its result (R54, R242). -/
def withinCapacity (s : State) : Prop :=
  (foldChunks s.slot0.partials).length ≤ Config.mapCap ∧ (foldChunks s.slot1.partials).length ≤ Config.mapCap ∧
  (∀ r, s.slot0.result = some r → r.map.length ≤ Config.mapCap) ∧
  (∀ r, s.slot1.result = some r → r.map.length ≤ Config.mapCap)

/-- The transitions a slot may make in a command: a new request of a slot that is not pending, or a cancellation (R250). -/
def commandMove (p q : SlotState) : Bool :=
  decide (p = q) || (!isPending p && decide (q = .sent)) || (isPending p && decide (q = .cancelled))

/-- The transitions a slot may make in `EV.RX` (R250). -/
def rxMove (p q : SlotState) : Bool :=
  decide (p = q) || (isPending p && (decide (q = .completed) || decide (q = .completing) || decide (q = .csumFailed)))

/-- The transitions a slot may make in `EV.TICK` (R250). -/
def tickMove (p q : SlotState) : Bool :=
  decide (p = q) || (decide (p = .sent) && decide (q = .timedOut)) ||
  (decide (p = .completing) && decide (q = .salvaged))

/-- The transitions a slot may make in a step that takes this input (R250, R290). -/
def legalMove (i : Input) (p q : SlotState) : Bool :=
  match i with
  | .event (.cmd _) => commandMove p q
  | .event (.rx _) => rxMove p q
  | .event .tick => tickMove p q
  | .resetInput => decide (q = .idle)
  | .takeTx => decide (p = q)
  | .takeNotification => decide (p = q)
  | .takeResponse => decide (p = q)

/-- The number of `RESOLVE(sh, …)` records on a port (R251). -/
def resolveCount (sh : Shape) (ns : List Notification) : Nat :=
  (ns.filter fun n => match n with
    | .resolve t _ => decide (t = sh)
    | _ => false).length

/-- The state after a command that ends without a fault: one more response, `ST = 0` and these result slots, and nothing
else (R24, R26, R70). -/
def answered (s : State) (r : ResultSlots) : State :=
  { s with responses := s.responses ++ [{ tag := s.issued, st := 0, results := r }], issued := s.issued + 1 }

/-- The state after a command that faults: one more response with the fault's code and undefined other slots, the sticky
FSR bit of the code, and nothing else (R26, R41, R260, R265, R266). -/
def faulted (s : State) (k : FaultKind) : State :=
  { s with
    fsr := s.fsr ||| BitVec.twoPow 12 (faultCode k)
    responses := s.responses ++
      [{ tag := s.issued, st := BitVec.ofNat 4 (faultCode k), results := Config.undefinedResults s.free }]
    issued := s.issued + 1
    free := s.free + 1 }

/-- The state after an inbound frame is rejected: the sticky FSR bit and one `RXERR` record, and nothing else (R239, R240,
R242). -/
def rejected (s : State) (k : FaultKind) : State :=
  { s with fsr := s.fsr ||| BitVec.twoPow 12 (faultCode k), notes := s.notes ++ [.rxerr k] }

/-- The state after an inbound message is handed to the host: one `RXMSG` record, and nothing else (R237, R272). -/
def surfaced (s : State) (d : DeviceMessage) : State := { s with notes := s.notes ++ [.rxmsg d] }

/-- The command supplies every operand slot that its operation reads, by the table of R71; false for an op code that is none
of the table's. -/
def suppliesSlots (c : Command) : Bool :=
  let o := c.operands
  match c.op.toNat with
  | 0x10 => o.w.isSome && o.n.isSome
  | 0x11 => o.w.isSome && o.a.isSome
  | 0x12 => o.w.isSome && o.a.isSome
  | 0x13 => o.w.isSome && o.buf.isSome
  | 0x14 => o.w.isSome && o.a.isSome && o.b.isSome && o.k.isSome
  | 0x15 => o.w.isSome && o.a.isSome && o.b.isSome
  | 0x16 => o.w.isSome && o.a.isSome && o.b.isSome
  | 0x20 => o.a.isSome && o.n.isSome
  | 0x21 => o.a.isSome && o.n.isSome
  | 0x22 => o.a.isSome && o.b.isSome && o.x.isSome
  | 0x23 => o.a.isSome && o.b.isSome && o.map.isSome
  | 0x30 => o.a.isSome && o.buf.isSome
  | 0x31 => o.a.isSome && o.buf.isSome && o.csb.isSome
  | 0x40 => o.buf.isSome
  | 0x41 => o.msg.isSome
  | 0x42 => o.msg.isSome
  | 0x43 => o.dev.isSome
  | 0x44 => o.dev.isSome && o.a.isSome && o.b.isSome
  | 0x45 => o.dev.isSome && o.a.isSome && o.buf.isSome
  | 0x50 => o.msg.isSome
  | 0x51 => o.dev.isSome && o.a.isSome && o.b.isSome && o.timeout.isSome
  | 0x52 => o.dev.isSome && o.timeout.isSome
  | 0x53 => o.h.isSome
  | 0x54 => o.h.isSome
  | 0x60 => o.srn.isSome
  | _ => false

/-- A command R72 refuses: a reserved op code or a missing operand slot, `W = 3`, or `SRN` 6 or 7. -/
def refusedByR72 (c : Command) : Bool :=
  !suppliesSlots c ||
  (decide (0x10 ≤ c.op.toNat) && decide (c.op.toNat ≤ 0x16) && decide (c.operands.w = some 3)) ||
  (decide (c.op.toNat = 0x60) && (decide (c.operands.srn = some 6) || decide (c.operands.srn = some 7)))

/-- The three SysEx constructors of a MidiMessage (R150). -/
def isSysEx : MidiMessage → Bool
  | .sysExUniversalRealtime _ _ => true
  | .sysExUniversalNonRealtime _ _ => true
  | .sysExManufacturer _ _ => true
  | _ => false

/-- The two response kinds (R230, R235 step 3). -/
def isResponse : DeviceMessage → Bool
  | .dataSet _ _ _ _ => true
  | .identityReply _ => true
  | _ => false

/-- The requested region is covered by the chunks: every address of it lies in one of them (R231). -/
def regionCovered (req : Request) (cs : List Chunk) : Prop :=
  ∀ k, toInt req.addr ≤ k → k < toInt req.addr + toInt req.size →
    ∃ c ∈ cs, toInt c.addr ≤ k ∧ k < toInt c.addr + c.data.length

/-- What the end of request `sh` with result `r` makes of state `s` (R236, R241, R246, R249, and R247 for the commands held
on the slot): the slot, `order`, one RESOLVE, the FSR bit that goes with the outcome when it has one, and a response with
the result for each held command; the other slot, the TX port and what is to come are as before. The held commands are
answered oldest first, an order the spec leaves open (log 10). -/
def requestEnded (sh : Shape) (r : ResultRecord) (bit : Option Nat) (s t : State) : Prop :=
  slotOf t sh = { slotOf s sh with st := outcomeState r.outcome, partials := [], result := some r } ∧
  (∀ sh', sh' ≠ sh → slotOf t sh' = slotOf s sh') ∧
  t.order = s.order.filter (· ≠ sh) ∧
  t.notes = s.notes ++ [.resolve sh r.outcome] ∧
  t.fsr = (match bit with
    | none => s.fsr
    | some i => s.fsr ||| BitVec.twoPow 12 i) ∧
  t.tx = s.tx ∧ t.inputs = s.inputs ∧ t.issued = s.issued ∧
  t.held = s.held.filter (fun h => h.slot ≠ sh) ∧
  ∃ qs : List Response, t.responses = s.responses ++ qs ∧
    qs.map (·.tag) = (s.held.filter fun h => h.slot = sh).map (·.tag) ∧
    ∀ q ∈ qs, q.st = BitVec.ofNat 4 (((outcomeFault r.outcome).map faultCode).getD 0) ∧ q.results.rres = some r

/-- `valid_D` (R9) as a proposition: `d` bytes, each below 0x80. -/
def IsDigits (d : Nat) (a : Digits) : Prop := a.length = d ∧ ∀ b ∈ a, b.toNat < 0x80

/-- The bytes are 7-bit clean (R191). -/
def IsClean (p : List Byte) : Prop := ∀ b ∈ p, b.toNat < 0x80

/-- The plain sum of address digits and payload bytes (R8, R137). -/
def plainSum (a p : List Byte) : Nat := (a.map BitVec.toNat).sum + (p.map BitVec.toNat).sum

/-- The checksum byte in the form R137 (a) gives: `(128 - (S mod 128)) mod 128`. -/
def checksumByte (a p : List Byte) : Byte := BitVec.ofNat 8 ((128 - plainSum a p % 128) % 128)

/-- Frame `f` and message `m` stand for each other, whatever the state: `MC.DECODE` of `f` answers `m` and `MC.ENCODE` of `m`
answers `f` (R152, R153). -/
def wirePair (f : Frame) (m : MidiMessage) : Prop :=
  ∀ s : State,
    exec (.mcDecode f) s = .next (answered s { rmsg := some (.midi m) }) ∧
    exec (.mcEncode m) s = .next (answered s { rbuf := some f })

/-- Length of the frame of a message: the variant's fixed length (R80), or prefix and payload of a SysEx message (R195). -/
def variantLength : MidiMessage → Nat
  | .sysExUniversalRealtime _ p => 1 + 2 + p.length + 1
  | .sysExUniversalNonRealtime _ p => 1 + 2 + p.length + 1
  | .sysExManufacturer id p => 1 + id.length + p.length + 1
  | .programChange _ _ => 2
  | .channelPressure _ _ => 2
  | .timeCode _ _ => 2
  | .songSelect _ => 2
  | .tuneRequest => 1
  | .clock => 1
  | .start => 1
  | .continueMsg => 1
  | .stop => 1
  | .activeSensing => 1
  | .reset => 1
  | _ => 3

/-- SysEx message `m` has one of the four patterns of R206 to R209, and `d` is what it narrows to. -/
def narrowsTo (m : MidiMessage) (d : DeviceMessage) : Prop :=
  (∃ dev, m = .sysExUniversalNonRealtime dev [0x06, 0x01] ∧ d = .identityRequest dev) ∨
  (∃ dev man f0 f1 n0 n1 r0 r1 r2 r3,
    m = .sysExUniversalNonRealtime dev [0x06, 0x02, man, f0, f1, n0, n1, r0, r1, r2, r3] ∧
    d = .identityReply
      { deviceId := dev, manufacturer := man, familyBytes := [f0, f1], familyCode := f0 ++ f1,
        numberBytes := [n0, n1], familyNumberCode := n0 ++ n1,
        revBytes := [r0, r1, r2, r3], softwareRev := r0 ++ r1 ++ r2 ++ r3 }) ∨
  (∃ dev a b c, a.length = 4 ∧ b.length = 4 ∧
    m = .sysExManufacturer [0x41] ([dev, 0x00, 0x00, 0x64, 0x11] ++ a ++ b ++ [c]) ∧ d = .readRequest dev a b c) ∨
  (∃ dev a p c, a.length = 4 ∧
    m = .sysExManufacturer [0x41] ([dev, 0x00, 0x00, 0x64, 0x12] ++ a ++ p ++ [c]) ∧ d = .dataSet dev a p c)

/-- The slot is pending: Sent or Completing (R32). -/
def Pending (sl : Slot) : Prop := sl.st = .sent ∨ sl.st = .completing

/-- Every record a slot can end with names its outcome; these are the two an expiring slot ends with (R246). -/
def expiryRecord (partials : List Chunk) : ResultRecord :=
  if partials = [] then { outcome := .timeoutError, degraded := false, map := [], ident := none }
  else { outcome := .salvaged, degraded := true, map := foldChunks partials, ident := none }

/-- The FSR bit that goes with an expiry: TIMEOUT or DEGRADED (R41, R246). -/
def expiryBit (partials : List Chunk) : Nat := if partials = [] then 5 else 11

/-- What one tick makes of slot `sh` (R244): nothing unless it is pending with a timeout; else its counter goes up by one,
saturating, and it expires when the counter exceeds the timeout. -/
def ticked (sh : Shape) (s t : State) : Prop :=
  (¬(Pending (slotOf s sh) ∧ (slotOf s sh).hasTo = true) → t = s) ∧
  (Pending (slotOf s sh) ∧ (slotOf s sh).hasTo = true →
    ∃ n : BitVec 32, n.toNat = min ((slotOf s sh).idle.toNat + 1) (2 ^ 32 - 1) ∧
      (n.toNat ≤ (slotOf s sh).timeout.toNat → t = setSlot s sh { slotOf s sh with idle := n }) ∧
      ((slotOf s sh).timeout.toNat < n.toNat →
        requestEnded sh (expiryRecord (slotOf s sh).partials) (some (expiryBit (slotOf s sh).partials))
          (setSlot s sh { slotOf s sh with idle := n }) t))

/-- The fault kinds R262 lists for the operation with this op code; a reserved op code is IllegalOp (R72). -/
def listedFaults (op : Nat) : List FaultKind :=
  if (0x10 ≤ op ∧ op ≤ 0x16) ∨ (0x20 ≤ op ∧ op ≤ 0x23) then [.rangeError, .illegalOp]
  else match op with
    | 0x30 => [.rangeError, .illegalOp]
    | 0x31 => [.rangeError, .checksumMismatch, .illegalOp]
    | 0x40 => [.decodeError, .illegalOp]
    | 0x41 => [.rangeError, .capacity, .illegalOp]
    | 0x42 => [.unsupportedMessageError, .illegalOp]
    | 0x43 => [.rangeError, .illegalOp]
    | 0x44 => [.rangeError, .illegalOp]
    | 0x45 => [.rangeError, .capacity, .illegalOp]
    | 0x50 => [.rangeError, .capacity, .illegalOp]
    | 0x51 => [.rangeError, .shapeBusy, .illegalOp]
    | 0x52 => [.rangeError, .shapeBusy, .illegalOp]
    | 0x53 => [.badHandle, .timeoutError, .checksumMismatch, .cancelledError, .illegalOp]
    | 0x54 => [.badHandle, .illegalOp]
    | _ => [.illegalOp]

/-- What R45 says of the state after reset. The request fields and the timeout have no value there (U8, log 8), and are not
named. -/
def asAfterReset (t : State) : Prop :=
  (∀ sh, (slotOf t sh).st = .idle ∧ (slotOf t sh).hasTo = false ∧ (slotOf t sh).idle = 0 ∧
    (slotOf t sh).partials = [] ∧ (slotOf t sh).result = none) ∧
  t.order = [] ∧ t.fsr = 0 ∧ t.tx = [] ∧ t.notes = [] ∧ t.held = []

/-- The step was no stop. -/
def isNext (o : Host.Outcome State Fault Refusal) : Bool :=
  match o with
  | .next _ => true
  | _ => false

end Sys2Proof.Machine
end

