-- ==== Sys2Proof/Certificates/Slice0/Obligations.lean ====
section
/-! DEFINITION. What is claimed of the block, for the provers: one proposition per claim, each with the rule of spec/ it
formalises. `answered`, `faulted`, `rejected` and `surfaced` (Sys2Proof/Safety.lean) are whole next states, so an equation
with one of them is also the frame: every field they do not name is as before. In them `issued` (which command a response
answers, log 9) and `free` (the counter of free values, log 7) are the model's own; `Config.undefinedResults` is a free value
(U9), and no statement rests on what it is. -/

section

open Sys2Proof Sys2Proof.Machine

/-! ### Events, commands and their encodings -/

/-- R22, R71: the next event is decoded to its instruction, and the step is that instruction on the state without the
event; without any input the block stays as it is (R23; log 2). -/
def Obligations.StepRunsDecodedInstruction : Prop :=
  ∀ s : State,
    (s.inputs = [] → step s = .next s) ∧
    ∀ (e : Event) (rest : List Input) (i : Instr),
      s.inputs = .event e :: rest → decodeEvent e = .ok i → step s = exec i { s with inputs := rest }

/-- R72: a command with a reserved op code, `W = 3`, `SRN` 6 or 7, or without an operand slot it reads is refused with
IllegalOp and leaves no other trace. -/
def Obligations.RefusedCommandIsIllegalOp : Prop :=
  ∀ (s : State) (c : Command) (rest : List Input),
    s.inputs = .event (.cmd c) :: rest → refusedByR72 c = true →
      step s = .next (faulted { s with inputs := rest } .illegalOp)

/-- R70, R71: every other command decodes to an instruction with its op code, and the operand slots of that instruction are
the command's own. That a command is accepted which also carries slots its operation does not read is the model's choice
(log 21). -/
def Obligations.AcceptedCommandKeepsItsOperands : Prop :=
  ∀ c : Command, refusedByR72 c = false →
    ∃ i o, decodeEvent (.cmd c) = .ok i ∧ encode i = .cmd ⟨c.op, o⟩ ∧
      (o.w = none ∨ o.w = c.operands.w) ∧ (o.a = none ∨ o.a = c.operands.a) ∧
      (o.b = none ∨ o.b = c.operands.b) ∧ (o.x = none ∨ o.x = c.operands.x) ∧
      (o.k = none ∨ o.k = c.operands.k) ∧ (o.n = none ∨ o.n = c.operands.n) ∧
      (o.buf = none ∨ o.buf = c.operands.buf) ∧ (o.map = none ∨ o.map = c.operands.map) ∧
      (o.msg = none ∨ o.msg = c.operands.msg) ∧ (o.dev = none ∨ o.dev = c.operands.dev) ∧
      (o.csb = none ∨ o.csb = c.operands.csb) ∧ (o.timeout = none ∨ o.timeout = c.operands.timeout) ∧
      (o.h = none ∨ o.h = c.operands.h) ∧ (o.srn = none ∨ o.srn = c.operands.srn)

/-- R70 to R92: the event of a well-formed instruction decodes to that instruction, and a frame among them fits the RX
port (R25). -/
def Obligations.EncodedInstructionDecodesBack : Prop :=
  ∀ i : Instr, i.wellFormed = true →
    decodeEvent (encode i) = .ok i ∧ ∀ f, encode i = .rx f → f.length ≤ Config.frameMax

/-- R80, R85: every frame is the frame of the row the decoder answers for it. Which row that is where a frame matches
several (R92: a device message also matches its SysEx row, and every frame is an `EV.RX`), and that the well-formed terms are
those rows alone, is the model's choice (log 17). -/
def Obligations.EveryFrameEncodesBack : Prop :=
  ∀ f : Frame, encode (decodeRx f) = .rx f ∧
    (f.length ≤ Config.frameMax → (decodeRx f).wellFormed = true)

/-- A few words of the opcode table decode to their rows: their op codes and frames are written out from R71, R156 to R175
and R206. What a word stands for beyond its given bits (operand slots of zeros for the bare op codes 0x14 and 0x60, the first
byte in the least significant bits) is the model's reading of the table (log 16). -/
def Obligations.WrittenOutWordsDecode : Prop :=
  decodeTableWord 8 0x14 = some (.sbOffsetby .w7 [0] [0] 0) ∧
  decodeTableWord 8 0x60 = some (.srRead 0) ∧
  decodeTableWord 24 0x643C90 = some (.noteOn 0 60 100) ∧
  decodeTableWord 24 0x007BB2 = some (.channelMode 2 .allNotesOff 0) ∧
  decodeTableWord 24 0x4000E0 = some (.pitchBend 0 0) ∧
  decodeTableWord 8 0xFE = some .activeSensing ∧
  decodeTableWord 48 0xF70106107EF0 = some (.identityRequest 0x10) ∧
  decodeTableWord 8 0x17 = none

/-! ### The codec -/

/-- R152, R154, R85, R190, R151: `MC.DECODE` answers a message that keeps its invariants exactly on the frames of the wire
formats, and faults with DecodeError on every other byte sequence. -/
def Obligations.McDecodeAcceptsWellFormedFrames : Prop :=
  ∀ (f : Frame) (s : State),
    (frameWellFormed f = true →
      ∃ m, messageValid m = true ∧ exec (.mcDecode f) s = .next (answered s { rmsg := some (.midi m) })) ∧
    (frameWellFormed f = false → exec (.mcDecode f) s = .next (faulted s .decodeError))

/-- R156 to R163, R77, R81: the channel-voice frames, bit by bit, and their messages, both ways. -/
def Obligations.ChannelVoiceFramesOnTheWire : Prop :=
  ∀ (n : BitVec 4) (x y : BitVec 7),
    wirePair [0x8#4 ++ n, 0#1 ++ x, 0#1 ++ y] (.noteOff n.toNat x.toNat y.toNat) ∧
    wirePair [0x9#4 ++ n, 0#1 ++ x, 0#1 ++ y] (.noteOn n.toNat x.toNat y.toNat) ∧
    wirePair [0xA#4 ++ n, 0#1 ++ x, 0#1 ++ y] (.polyKeyPressure n.toNat x.toNat y.toNat) ∧
    (x.toNat < 120 → wirePair [0xB#4 ++ n, 0#1 ++ x, 0#1 ++ y] (.controlChange n.toNat x.toNat y.toNat)) ∧
    wirePair [0xB#4 ++ n, 0b01111000#8, 0#1 ++ y] (.channelMode n.toNat .allSoundOff y.toNat) ∧
    wirePair [0xB#4 ++ n, 0b01111001#8, 0#1 ++ y] (.channelMode n.toNat .resetAllControllers y.toNat) ∧
    wirePair [0xB#4 ++ n, 0b01111010#8, 0#1 ++ y] (.channelMode n.toNat .localControl y.toNat) ∧
    wirePair [0xB#4 ++ n, 0b01111011#8, 0#1 ++ y] (.channelMode n.toNat .allNotesOff y.toNat) ∧
    wirePair [0xB#4 ++ n, 0b01111100#8, 0#1 ++ y] (.channelMode n.toNat .omniModeOff y.toNat) ∧
    wirePair [0xB#4 ++ n, 0b01111101#8, 0#1 ++ y] (.channelMode n.toNat .omniModeOn y.toNat) ∧
    wirePair [0xB#4 ++ n, 0b01111110#8, 0#1 ++ y] (.channelMode n.toNat .monoModeOn y.toNat) ∧
    wirePair [0xB#4 ++ n, 0b01111111#8, 0#1 ++ y] (.channelMode n.toNat .polyModeOn y.toNat) ∧
    wirePair [0xC#4 ++ n, 0#1 ++ x] (.programChange n.toNat x.toNat) ∧
    wirePair [0xD#4 ++ n, 0#1 ++ x] (.channelPressure n.toNat x.toNat) ∧
    wirePair [0xE#4 ++ n, 0#1 ++ x, 0#1 ++ y] (.pitchBend n.toNat (((y ++ x).toNat : Int) - 8192))

/-- R165 to R175, R77: the system-common and real-time frames, bit by bit, and their messages, both ways. -/
def Obligations.SystemFramesOnTheWire : Prop :=
  (∀ (t : BitVec 3) (v : BitVec 4), wirePair [0xF1, 0#1 ++ t ++ v] (.timeCode t.toNat v.toNat)) ∧
  (∀ x y : BitVec 7, wirePair [0xF2, 0#1 ++ x, 0#1 ++ y] (.songPositionPointer (y ++ x).toNat)) ∧
  (∀ x : BitVec 7, wirePair [0xF3, 0#1 ++ x] (.songSelect x.toNat)) ∧
  wirePair [0xF6] .tuneRequest ∧ wirePair [0xF8] .clock ∧ wirePair [0xFA] .start ∧
  wirePair [0xFB] .continueMsg ∧ wirePair [0xFC] .stop ∧ wirePair [0xFE] .activeSensing ∧ wirePair [0xFF] .reset

/-- R190, R192 to R194, R82: the SysEx frames and their messages, both ways, for every clean payload that fits the port. -/
def Obligations.SysExFramesOnTheWire : Prop :=
  ∀ p : List Byte, IsClean p →
    (∀ dev : Byte, dev.toNat < 0x80 → p.length + 4 ≤ Config.frameMax →
      wirePair ([0xF0, 0x7F, dev] ++ p ++ [0xF7]) (.sysExUniversalRealtime dev p) ∧
      wirePair ([0xF0, 0x7E, dev] ++ p ++ [0xF7]) (.sysExUniversalNonRealtime dev p)) ∧
    (∀ b : Byte, 0x01 ≤ b.toNat → b.toNat ≤ 0x7D → p.length + 3 ≤ Config.frameMax →
      wirePair ([0xF0, b] ++ p ++ [0xF7]) (.sysExManufacturer [b] p)) ∧
    (∀ b c : Byte, b.toNat < 0x80 → c.toNat < 0x80 → p.length + 5 ≤ Config.frameMax →
      wirePair ([0xF0, 0x00, b, c] ++ p ++ [0xF7]) (.sysExManufacturer [0x00, b, c] p))

/-- R153, R151, U5, R181, R195: `MC.ENCODE` answers a frame of the variant's length, faults with RangeError when a field is
out of range, and with Capacity when the frame is longer than `FRAME_MAX`. -/
def Obligations.McEncodeAnswersOrFaults : Prop :=
  ∀ (m : MidiMessage) (s : State),
    (messageValid m = true → variantLength m ≤ Config.frameMax →
      ∃ f, f.length = variantLength m ∧ exec (.mcEncode m) s = .next (answered s { rbuf := some f })) ∧
    (messageValid m = true → Config.frameMax < variantLength m →
      exec (.mcEncode m) s = .next (faulted s .capacity)) ∧
    (messageValid m = false → exec (.mcEncode m) s = .next (faulted s .rangeError))

/-- R180: encoding and decoding are inverse to each other, as functions and as commands: decoding what `MC.ENCODE` answered
gives the message back, and encoding what `MC.DECODE` answered gives the frame back (when it fits `FRAME_MAX`, U5). -/
def Obligations.CodecRoundTrips : Prop :=
  (∀ m, messageValid m = true → decodeFrame (encodeMessage m) = .ok m) ∧
  (∀ f m, decodeFrame f = .ok m → messageValid m = true ∧ encodeMessage m = f) ∧
  (∀ (m : MidiMessage) (f : Frame) (s u : State),
    exec (.mcEncode m) s = .next (answered s { rbuf := some f }) →
      exec (.mcDecode f) u = .next (answered u { rmsg := some (.midi m) })) ∧
  (∀ (f : Frame) (m : MidiMessage) (s u : State), f.length ≤ Config.frameMax →
    exec (.mcDecode f) s = .next (answered s { rmsg := some (.midi m) }) →
      exec (.mcEncode m) u = .next (answered u { rbuf := some f }))

/-- R205 to R209, R214: `DX.NARROW` passes every message through that is not SysEx, narrows a SysEx message of one of the
four patterns whatever its checksum, and faults on every other one. -/
def Obligations.DxNarrowKnowsFourPatterns : Prop :=
  ∀ (m : MidiMessage) (s : State),
    (isSysEx m = false →
      exec (.dxNarrow m) s = .next (answered s { rmsg := some (.device (.passthrough m)) })) ∧
    (∀ d, narrowsTo m d → exec (.dxNarrow m) s = .next (answered s { rmsg := some (.device d) })) ∧
    (isSysEx m = true → (∀ d, ¬narrowsTo m d) →
      exec (.dxNarrow m) s = .next (faulted s .unsupportedMessageError))

/-- R210. -/
def Obligations.DxMkidreqBuildsIdentityRequest : Prop :=
  ∀ (dev : Byte) (s : State),
    (dev.toNat < 0x80 →
      exec (.dxMkidreq dev) s = .next (answered s
        { rmsg := some (.midi (.sysExUniversalNonRealtime dev [0x06, 0x01])),
          rbuf := some [0xF0, 0x7E, dev, 0x06, 0x01, 0xF7] })) ∧
    (0x80 ≤ dev.toNat → exec (.dxMkidreq dev) s = .next (faulted s .rangeError))

/-- R211. -/
def Obligations.DxMkrq1BuildsReadRequest : Prop :=
  ∀ (dev : Byte) (a b : Digits) (s : State),
    (dev.toNat < 0x80 → IsDigits 4 a → IsDigits 4 b →
      exec (.dxMkrq1 dev a b) s = .next (answered s
        { rmsg := some (.midi (.sysExManufacturer [0x41]
            ([dev, 0x00, 0x00, 0x64, 0x11] ++ a ++ b ++ [checksumByte a b]))),
          rbuf := some ([0xF0, 0x41, dev, 0x00, 0x00, 0x64, 0x11] ++ a ++ b ++ [checksumByte a b, 0xF7]) })) ∧
    (¬(dev.toNat < 0x80 ∧ IsDigits 4 a ∧ IsDigits 4 b) →
      exec (.dxMkrq1 dev a b) s = .next (faulted s .rangeError))

/-- R212. -/
def Obligations.DxMkdt1BuildsDataSet : Prop :=
  ∀ (dev : Byte) (a : Digits) (p : Frame) (s : State),
    (dev.toNat < 0x80 → IsDigits 4 a → IsClean p → 13 + p.length ≤ Config.frameMax →
      exec (.dxMkdt1 dev a p) s = .next (answered s
        { rmsg := some (.midi (.sysExManufacturer [0x41]
            ([dev, 0x00, 0x00, 0x64, 0x12] ++ a ++ p ++ [checksumByte a p]))),
          rbuf := some ([0xF0, 0x41, dev, 0x00, 0x00, 0x64, 0x12] ++ a ++ p ++ [checksumByte a p, 0xF7]) })) ∧
    (dev.toNat < 0x80 → IsDigits 4 a → IsClean p → Config.frameMax < 13 + p.length →
      exec (.dxMkdt1 dev a p) s = .next (faulted s .capacity)) ∧
    (¬(dev.toNat < 0x80 ∧ IsDigits 4 a ∧ IsClean p) →
      exec (.dxMkdt1 dev a p) s = .next (faulted s .rangeError))

/-- R215: what a builder answers narrows to the device message it builds, encodes and decodes to itself, and carries a
checksum that `CS.VERIFY` accepts. -/
def Obligations.BuildersObeyTheirLaws : Prop :=
  ∀ (dev : Byte) (a b : Digits) (p : Frame) (m : MidiMessage) (f : Frame) (s u : State),
    (exec (.dxMkidreq dev) s = .next (answered s { rmsg := some (.midi m), rbuf := some f }) →
      exec (.dxNarrow m) u = .next (answered u { rmsg := some (.device (.identityRequest dev)) }) ∧ wirePair f m) ∧
    (exec (.dxMkrq1 dev a b) s = .next (answered s { rmsg := some (.midi m), rbuf := some f }) →
      exec (.dxNarrow m) u =
        .next (answered u { rmsg := some (.device (.readRequest dev a b (checksumByte a b))) }) ∧ wirePair f m ∧
      exec (.csVerify a b (checksumByte a b)) u = .next (answered u { rb := some true })) ∧
    (exec (.dxMkdt1 dev a p) s = .next (answered s { rmsg := some (.midi m), rbuf := some f }) →
      exec (.dxNarrow m) u =
        .next (answered u { rmsg := some (.device (.dataSet dev a p (checksumByte a p))) }) ∧ wirePair f m ∧
      exec (.csVerify a p (checksumByte a p)) u = .next (answered u { rb := some true }))

/-! ### The adder -/

/-- R102: digit `i` is `(N >> (7*(D-1-i))) & 0x7F`. -/
def Obligations.SbFromintAnswersDigits : Prop :=
  ∀ (w : Width) (n : BitVec 32) (s : State),
    (n.toNat < 2 ^ (7 * digitCount w) →
      exec (.sbFromint w n) s = .next (answered s
        { r := some ((List.range (digitCount w)).map fun i =>
            BitVec.ofNat 8 ((n.toNat >>> (7 * (digitCount w - 1 - i))) &&& 0x7F)) })) ∧
    (2 ^ (7 * digitCount w) ≤ n.toNat → exec (.sbFromint w n) s = .next (faulted s .rangeError))

/-- R103: the weighted sum of the digits, which fits the result slot. -/
def Obligations.SbTointAnswersWeightedSum : Prop :=
  ∀ (w : Width) (a : Digits) (s : State),
    (IsDigits (digitCount w) a →
      ∃ n : BitVec 32,
        n.toNat = (∑ i ∈ Finset.range (digitCount w), (a.getD i 0).toNat * 128 ^ (digitCount w - 1 - i)) ∧
        n.toNat = toInt a ∧ n.toNat < 2 ^ (7 * digitCount w) ∧
        exec (.sbToint w a) s = .next (answered s { rn := some n })) ∧
    (¬IsDigits (digitCount w) a → exec (.sbToint w a) s = .next (faulted s .rangeError))

/-- R104, R105: both copy the bytes of a valid value and fault on every other byte sequence. -/
def Obligations.SbByteConversionsCopy : Prop :=
  ∀ (w : Width) (a : Digits) (s : State),
    (IsDigits (digitCount w) a →
      exec (.sbTobytes w a) s = .next (answered s { rbuf := some a }) ∧
      exec (.sbFrombytes w a) s = .next (answered s { r := some a })) ∧
    (¬IsDigits (digitCount w) a →
      exec (.sbTobytes w a) s = .next (faulted s .rangeError) ∧
      exec (.sbFrombytes w a) s = .next (faulted s .rangeError))

/-- R112: integers, digits and bytes convert into each other without loss. -/
def Obligations.SevenBitRoundTrips : Prop :=
  ∀ w : Width,
    (∀ n : BitVec 32, n.toNat < 2 ^ (7 * digitCount w) →
      ∃ v, IsDigits (digitCount w) v ∧ ∀ s : State,
        exec (.sbFromint w n) s = .next (answered s { r := some v }) ∧
        exec (.sbToint w v) s = .next (answered s { rn := some n }) ∧
        exec (.sbTobytes w v) s = .next (answered s { rbuf := some v })) ∧
    (∀ v : Digits, IsDigits (digitCount w) v →
      ∃ n, ∀ s : State,
        exec (.sbToint w v) s = .next (answered s { rn := some n }) ∧
        exec (.sbFromint w n) s = .next (answered s { r := some v }) ∧
        exec (.sbTobytes w v) s = .next (answered s { rbuf := some v }) ∧
        exec (.sbFrombytes w v) s = .next (answered s { r := some v }))

/-- R106, R108 (a) to (c): `K` digit-wise adds are one base-128 sum, and they fault exactly when that sum does not fit; one
more add is one add to the result. -/
def Obligations.SbOffsetbyIsBase128Addition : Prop :=
  ∀ (w : Width) (a b : Digits) (k : BitVec 16) (s : State),
    (IsDigits (digitCount w) a → IsDigits (digitCount w) b →
      (toInt a + k.toNat * toInt b < 2 ^ (7 * digitCount w) →
        ∃ r, IsDigits (digitCount w) r ∧ toInt r = toInt a + k.toNat * toInt b ∧
          exec (.sbOffsetby w a b k) s = .next (answered s { r := some r }) ∧
          (k.toNat < 65535 → exec (.sbOffsetby w a b (k + 1)) s = exec (.sbOffsetby w r b 1) s)) ∧
      (2 ^ (7 * digitCount w) ≤ toInt a + k.toNat * toInt b →
        exec (.sbOffsetby w a b k) s = .next (faulted s .rangeError))) ∧
    (¬(IsDigits (digitCount w) a ∧ IsDigits (digitCount w) b) →
      exec (.sbOffsetby w a b k) s = .next (faulted s .rangeError))

/-- R107, R106: one add is a chain of digit cells with a carry from each into the next more significant one; a carry out of
the most significant digit is a RangeError. -/
def Obligations.DigitCellsChainIntoTheAdder : Prop :=
  ∀ (w : Width) (a b : Digits) (s : State), IsDigits (digitCount w) a → IsDigits (digitCount w) b →
    ∃ c : Nat → Nat,
      c (digitCount w) = 0 ∧
      (∀ i, i < digitCount w →
        c i = if 128 ≤ (a.getD i 0).toNat + (b.getD i 0).toNat + c (i + 1) then 1 else 0) ∧
      (c 0 = 0 →
        exec (.sbOffsetby w a b 1) s = .next (answered s
          { r := some ((List.range (digitCount w)).map fun i =>
              BitVec.ofNat 8 (((a.getD i 0).toNat + (b.getD i 0).toNat + c (i + 1)) % 128)) })) ∧
      (c 0 = 1 → exec (.sbOffsetby w a b 1) s = .next (faulted s .rangeError))

/-- R110, R52: the first digit that differs decides, and the verdict is that of the integers. -/
def Obligations.SbCmpOrdersLikeIntegers : Prop :=
  ∀ (w : Width) (a b : Digits) (s : State),
    (IsDigits (digitCount w) a → IsDigits (digitCount w) b →
      (a = b → exec (.sbCmp w a b) s = .next (answered s { rc := some 0 })) ∧
      (∀ i, i < digitCount w → (∀ j, j < i → a.getD j 0 = b.getD j 0) →
        ((a.getD i 0).toNat < (b.getD i 0).toNat → exec (.sbCmp w a b) s = .next (answered s { rc := some 1 })) ∧
        ((b.getD i 0).toNat < (a.getD i 0).toNat → exec (.sbCmp w a b) s = .next (answered s { rc := some 2 }))) ∧
      exec (.sbCmp w a b) s = .next (answered s
        { rc := some (if toInt a = toInt b then 0 else if toInt a < toInt b then 1 else 2) })) ∧
    (¬(IsDigits (digitCount w) a ∧ IsDigits (digitCount w) b) →
      exec (.sbCmp w a b) s = .next (faulted s .rangeError))

/-- R111: the magnitude of the difference, at the same width, whichever operand comes first. -/
def Obligations.SbDiffAnswersMagnitude : Prop :=
  ∀ (w : Width) (a b : Digits) (s : State),
    (IsDigits (digitCount w) a → IsDigits (digitCount w) b →
      ∃ r, IsDigits (digitCount w) r ∧ toInt r = ((toInt a : Int) - toInt b).natAbs ∧
        exec (.sbDiff w a b) s = .next (answered s { r := some r }) ∧
        exec (.sbDiff w b a) s = .next (answered s { r := some r })) ∧
    (¬(IsDigits (digitCount w) a ∧ IsDigits (digitCount w) b) →
      exec (.sbDiff w a b) s = .next (faulted s .rangeError))

/-- R101, R113: a SevenBitValue operand of another length or with a byte of 0x80 or more is a RangeError, whatever else the
operation would check. -/
def Obligations.InvalidOperandIsRangeError : Prop :=
  ∀ (a b x : Digits) (w : Width) (s : State),
    (¬IsDigits (digitCount w) a →
      exec (.sbToint w a) s = .next (faulted s .rangeError) ∧
      exec (.sbTobytes w a) s = .next (faulted s .rangeError)) ∧
    (¬IsDigits (digitCount w) a ∨ ¬IsDigits (digitCount w) b →
      (∀ k, exec (.sbOffsetby w a b k) s = .next (faulted s .rangeError)) ∧
      exec (.sbCmp w a b) s = .next (faulted s .rangeError) ∧
      exec (.sbDiff w a b) s = .next (faulted s .rangeError)) ∧
    (¬IsDigits 4 a →
      (∀ n, exec (.dsAddi a n) s = .next (faulted s .rangeError) ∧
        exec (.dsSubi a n) s = .next (faulted s .rangeError)) ∧
      (∀ p, exec (.csCompute a p) s = .next (faulted s .rangeError) ∧
        (∀ c, exec (.csVerify a p c) s = .next (faulted s .rangeError)) ∧
        ∀ dev, exec (.dxMkdt1 dev a p) s = .next (faulted s .rangeError))) ∧
    (¬IsDigits 4 a ∨ ¬IsDigits 4 b →
      (∀ map, exec (.rgCovered a b map) s = .next (faulted s .rangeError)) ∧
      (∀ dev, exec (.dxMkrq1 dev a b) s = .next (faulted s .rangeError) ∧
        ∀ t, exec (.rqSendrRead dev a b t) s = .next (faulted s .rangeError))) ∧
    (¬IsDigits 4 a ∨ ¬IsDigits 4 b ∨ ¬IsDigits 4 x →
      exec (.rgContains a b x) s = .next (faulted s .rangeError))

/-! ### Addresses, sizes, regions and the checksum -/

/-- R123, R124: a size plus and minus a plain integer; the sum is the adder's, and a result outside 28 bits is a
RangeError. -/
def Obligations.DeviceSizeArithmetic : Prop :=
  ∀ (a : Digits) (n : BitVec 32) (s : State),
    (IsDigits 4 a →
      (toInt a + n.toNat < 2 ^ 28 →
        ∃ r, IsDigits 4 r ∧ toInt r = toInt a + n.toNat ∧
          exec (.dsAddi a n) s = .next (answered s { r := some r })) ∧
      (2 ^ 28 ≤ toInt a + n.toNat → exec (.dsAddi a n) s = .next (faulted s .rangeError)) ∧
      (∀ b, IsDigits 4 b → toInt b = n.toNat → exec (.dsAddi a n) s = exec (.sbOffsetby .w28 a b 1) s) ∧
      (n.toNat ≤ toInt a →
        ∃ r, IsDigits 4 r ∧ toInt r + n.toNat = toInt a ∧
          exec (.dsSubi a n) s = .next (answered s { r := some r })) ∧
      (toInt a < n.toNat → exec (.dsSubi a n) s = .next (faulted s .rangeError))) ∧
    (¬IsDigits 4 a →
      exec (.dsAddi a n) s = .next (faulted s .rangeError) ∧
      exec (.dsSubi a n) s = .next (faulted s .rangeError))

/-- R125 to R127, R53: containment of an address and coverage by a key set, of regions whose end can be expressed. -/
def Obligations.RegionQueries : Prop :=
  ∀ (a b x : Digits) (map : List Nat) (s : State),
    (IsDigits 4 a → IsDigits 4 b → toInt a + toInt b < 2 ^ 28 →
      (IsDigits 4 x →
        exec (.rgContains a b x) s = .next (answered s
          { rb := some (decide (toInt a ≤ toInt x ∧ toInt x < toInt a + toInt b)) })) ∧
      ((∀ k, toInt a ≤ k → k < toInt a + toInt b → k ∈ map) →
        exec (.rgCovered a b map) s = .next (answered s { rb := some true })) ∧
      (∀ k, toInt a ≤ k → k < toInt a + toInt b → k ∉ map →
        exec (.rgCovered a b map) s = .next (answered s { rb := some false }))) ∧
    (¬(IsDigits 4 a ∧ IsDigits 4 b ∧ toInt a + toInt b < 2 ^ 28) →
      exec (.rgContains a b x) s = .next (faulted s .rangeError) ∧
      exec (.rgCovered a b map) s = .next (faulted s .rangeError)) ∧
    (¬IsDigits 4 x → exec (.rgContains a b x) s = .next (faulted s .rangeError))

/-- R135 to R137, R139: the checksum, in the form `(128 - (S mod 128)) mod 128`; it brings the sum of digits and payload
to a multiple of 128, and no other value below 128 does. -/
def Obligations.CsComputeAnswersTheComplement : Prop :=
  ∀ (a : Digits) (p : Frame) (s : State),
    (IsDigits 4 a → IsClean p →
      ∃ c : BitVec 7, c.toNat = (128 - plainSum a p % 128) % 128 ∧
        exec (.csCompute a p) s = .next (answered s { rcs := some c }) ∧
        (c.toNat + plainSum a p) % 128 = 0 ∧
        ∀ c' : BitVec 7, (c'.toNat + plainSum a p) % 128 = 0 → c' = c) ∧
    (¬(IsDigits 4 a ∧ IsClean p) → exec (.csCompute a p) s = .next (faulted s .rangeError))

/-- R138, R139. -/
def Obligations.CsVerifyChecksTheSum : Prop :=
  ∀ (a : Digits) (p : Frame) (c : Byte) (s : State),
    (IsDigits 4 a → IsClean p → c.toNat < 0x80 →
      ((plainSum a p + c.toNat) % 128 = 0 → exec (.csVerify a p c) s = .next (answered s { rb := some true })) ∧
      ((plainSum a p + c.toNat) % 128 ≠ 0 → exec (.csVerify a p c) s = .next (faulted s .checksumMismatch))) ∧
    (¬(IsDigits 4 a ∧ IsClean p ∧ c.toNat < 0x80) →
      exec (.csVerify a p c) s = .next (faulted s .rangeError))

/-! ### The matcher's operations and the status registers -/

/-- R248, R40, R32: each status register reads as its state, zero-extended; 6 and 7 are IllegalOp. -/
def Obligations.SrReadAnswersTheViews : Prop :=
  ∀ s : State,
    exec (.srRead 0) s = .next (answered s { rsr := some (BitVec.ofNat 32 s.fsr.toNat) }) ∧
    (∀ p0 p1 : Nat, (Pending s.slot0 → p0 = 1) → (¬Pending s.slot0 → p0 = 0) →
      (Pending s.slot1 → p1 = 1) → (¬Pending s.slot1 → p1 = 0) →
      exec (.srRead 1) s = .next (answered s { rsr := some (BitVec.ofNat 32 (p0 + 2 * p1)) })) ∧
    exec (.srRead 2) s = .next (answered s
      { rsr := some (BitVec.ofNat 32 (slotCode s.slot0.st + if s.slot0.hasTo then 8 else 0)) }) ∧
    exec (.srRead 3) s = .next (answered s
      { rsr := some (BitVec.ofNat 32 (slotCode s.slot1.st + if s.slot1.hasTo then 8 else 0)) }) ∧
    exec (.srRead 4) s = .next (answered s { rsr := some s.slot0.idle }) ∧
    exec (.srRead 5) s = .next (answered s { rsr := some s.slot1.idle }) ∧
    exec (.srRead 6) s = .next (faulted s .illegalOp) ∧
    exec (.srRead 7) s = .next (faulted s .illegalOp) ∧
    [SlotState.idle, .sent, .completing, .completed, .salvaged, .timedOut, .csumFailed, .cancelled].map slotCode =
      [0, 1, 2, 3, 4, 5, 6, 7]

/-- R221: the frame `MC.ENCODE` answers goes to TX and nothing else happens; its faults emit nothing. -/
def Obligations.RqSenduEmitsTheFrame : Prop :=
  ∀ (m : MidiMessage) (s : State),
    (∀ f, exec (.mcEncode m) s = .next (answered s { rbuf := some f }) →
      exec (.rqSendu m) s = .next (answered { s with tx := s.tx ++ [f] } {})) ∧
    (∀ k, exec (.mcEncode m) s = .next (faulted s k) → exec (.rqSendu m) s = .next (faulted s k)) ∧
    (messageValid m = true → variantLength m ≤ Config.frameMax →
      ∃ f, exec (.rqSendu m) s = .next (answered { s with tx := s.tx ++ [f] } {}))

/-- R222 to R224, R226, R211: a read is registered and its frame emitted in one event; bad operands are RangeError, and a
pending read makes it ShapeBusy. That `TO.ticks = 2^32 - 1` is accepted when no timeout is declared (`TO.has = 0`) is the
model's reading of R222 (log 13). -/
def Obligations.RqSendrReadRegistersAndEmits : Prop :=
  ∀ (dev : Byte) (a b : Digits) (t : Timeout) (s : State),
    (dev.toNat < 0x80 → IsDigits 4 a → IsDigits 4 b → toInt a + toInt b < 2 ^ 28 →
      (t.has = true → t.ticks.toNat ≤ 2 ^ 32 - 2) →
      (¬Pending s.slot0 →
        exec (.rqSendrRead dev a b t) s = .next (answered
          { s with
            slot0 := { st := .sent, req := { dev := BitVec.ofNat 7 dev.toNat, addr := a, size := b },
                       hasTo := t.has, timeout := t.ticks, idle := 0, partials := [], result := none }
            order := s.order ++ [.read]
            tx := s.tx ++ [[0xF0, 0x41, dev, 0x00, 0x00, 0x64, 0x11] ++ a ++ b ++ [checksumByte a b, 0xF7]] }
          { rh := some 0 })) ∧
      (Pending s.slot0 → exec (.rqSendrRead dev a b t) s = .next (faulted s .shapeBusy))) ∧
    (¬(dev.toNat < 0x80 ∧ IsDigits 4 a ∧ IsDigits 4 b ∧ toInt a + toInt b < 2 ^ 28 ∧
        (t.has = true → t.ticks.toNat ≤ 2 ^ 32 - 2)) →
      exec (.rqSendrRead dev a b t) s = .next (faulted s .rangeError))

/-- R222, R223, R225, R226, R210: the same for an identity request. What the request's unused address and size are is not
stated (log 14). That `TO.ticks = 2^32 - 1` is accepted when no timeout is declared (`TO.has = 0`) is the model's reading of
R222 (log 13). -/
def Obligations.RqSendrIdentRegistersAndEmits : Prop :=
  ∀ (dev : Byte) (t : Timeout) (s : State),
    (dev.toNat < 0x80 → (t.has = true → t.ticks.toNat ≤ 2 ^ 32 - 2) →
      (¬Pending s.slot1 →
        ∃ req : Request, req.dev = BitVec.ofNat 7 dev.toNat ∧ exec (.rqSendrIdent dev t) s = .next (answered
          { s with
            slot1 := { st := .sent, req := req,
                       hasTo := t.has, timeout := t.ticks, idle := 0, partials := [], result := none }
            order := s.order ++ [.ident]
            tx := s.tx ++ [[0xF0, 0x7E, dev, 0x06, 0x01, 0xF7]] }
          { rh := some 1 })) ∧
      (Pending s.slot1 → exec (.rqSendrIdent dev t) s = .next (faulted s .shapeBusy))) ∧
    (¬(dev.toNat < 0x80 ∧ (t.has = true → t.ticks.toNat ≤ 2 ^ 32 - 2)) →
      exec (.rqSendrIdent dev t) s = .next (faulted s .rangeError))

/-- R247: BadHandle on an Idle slot, a hold on a pending one, and on a terminal one the result record with the status of
its outcome; a failing outcome sets its FSR bit, and the other result slots are then free values (U9; log 7, log 24). -/
def Obligations.RqGetAnswersHoldsOrFaults : Prop :=
  ∀ (h : BitVec 1) (sh : Shape) (s : State), (h = 0 → sh = .read) → (h = 1 → sh = .ident) →
    ((slotOf s sh).st = .idle → exec (.rqGet h) s = .next (faulted s .badHandle)) ∧
    (Pending (slotOf s sh) →
      exec (.rqGet h) s = .next { s with held := s.held ++ [{ tag := s.issued, slot := sh }], issued := s.issued + 1 }) ∧
    ((slotOf s sh).st ≠ .idle → ¬Pending (slotOf s sh) → ∀ r, (slotOf s sh).result = some r →
      (r.outcome = .completed ∨ r.outcome = .salvaged →
        exec (.rqGet h) s = .next (answered s { rres := some r })) ∧
      (∀ code : Nat, (r.outcome = .timeoutError ∧ code = 5) ∨ (r.outcome = .checksumMismatch ∧ code = 3) ∨
          (r.outcome = .cancelledError ∧ code = 6) →
        exec (.rqGet h) s = .next
          { s with
            fsr := s.fsr ||| BitVec.twoPow 12 code
            responses := s.responses ++ [{ tag := s.issued, st := BitVec.ofNat 4 code,
                                           results := { Config.undefinedResults s.free with rres := some r } }]
            issued := s.issued + 1
            free := s.free + 1 }))

/-- R249, R247: a pending request ends Cancelled, its partials dropped, its waiters and the command itself answered; a slot
that is not pending is BadHandle. That the waiters are answered oldest first and before the command itself is the model's
choice of an order the spec leaves open (log 10). -/
def Obligations.RqCancelEndsTheRequest : Prop :=
  ∀ (h : BitVec 1) (sh : Shape) (s : State), (h = 0 → sh = .read) → (h = 1 → sh = .ident) →
    (Pending (slotOf s sh) →
      ∃ t, requestEnded sh { outcome := .cancelledError, degraded := false, map := [], ident := none } (some 6) s t ∧
        exec (.rqCancel h) s = .next (answered t {})) ∧
    (¬Pending (slotOf s sh) → exec (.rqCancel h) s = .next (faulted s .badHandle))

/-! ### Arrival of frames -/

/-- R239, R152: a frame that is none of the formats, and a SysEx message of none of the four patterns, is reported and
changes nothing else. -/
def Obligations.RejectedFramesAreReported : Prop :=
  ∀ s : State,
    (∀ f, frameWellFormed f = false → exec (.evRx f) s = .next (rejected s .decodeError)) ∧
    (∀ dev p, exec (.sysExUniversalRealtime dev p) s = .next (rejected s .unsupportedMessageError)) ∧
    (∀ dev p, (∀ d, ¬narrowsTo (.sysExUniversalNonRealtime dev p) d) →
      exec (.sysExUniversalNonRealtime dev p) s = .next (rejected s .unsupportedMessageError)) ∧
    (∀ id p, (∀ d, ¬narrowsTo (.sysExManufacturer id p) d) →
      exec (.sysExManufacturer id p) s = .next (rejected s .unsupportedMessageError))

/-- R92, R83, R235: `EV.RX` of any frame is the arrival of the row it decodes to, and a SysEx row of one of the four
patterns is the arrival of its device message. -/
def Obligations.FrameArrivalIsItsRow : Prop :=
  ∀ s : State,
    (∀ f, exec (.evRx f) s = exec (decodeRx f) s) ∧
    (∀ dev, exec (.sysExUniversalNonRealtime dev [0x06, 0x01]) s = exec (.identityRequest dev) s) ∧
    (∀ dev man f0 f1 n0 n1 r0 r1 r2 r3,
      exec (.sysExUniversalNonRealtime dev [0x06, 0x02, man, f0, f1, n0, n1, r0, r1, r2, r3]) s =
        exec (.identityReply dev man [f0, f1] [n0, n1] [r0, r1, r2, r3]) s) ∧
    (∀ dev a b c, a.length = 4 → b.length = 4 →
      exec (.sysExManufacturer [0x41] ([dev, 0x00, 0x00, 0x64, 0x11] ++ a ++ b ++ [c])) s =
        exec (.readRequest dev a b c) s) ∧
    (∀ dev a p c, a.length = 4 →
      exec (.sysExManufacturer [0x41] ([dev, 0x00, 0x00, 0x64, 0x12] ++ a ++ p ++ [c])) s =
        exec (.dataSet dev a p c) s)

/-- R237, R272, R174, R175: every message that is not SysEx is handed to the host and changes nothing, the Reset and
ActiveSensing messages included. -/
def Obligations.PlainMessagesSurface : Prop :=
  ∀ s : State,
    (∀ n k v, exec (.noteOff n k v) s =
      .next (surfaced s (.passthrough (.noteOff n.toNat k.toNat v.toNat)))) ∧
    (∀ n k v, exec (.noteOn n k v) s =
      .next (surfaced s (.passthrough (.noteOn n.toNat k.toNat v.toNat)))) ∧
    (∀ n k p, exec (.polyKeyPressure n k p) s =
      .next (surfaced s (.passthrough (.polyKeyPressure n.toNat k.toNat p.toNat)))) ∧
    (∀ n c v, exec (.controlChange n c v) s =
      .next (surfaced s (.passthrough (.controlChange n.toNat c.toNat v.toNat)))) ∧
    (∀ n kind v, exec (.channelMode n kind v) s =
      .next (surfaced s (.passthrough (.channelMode n.toNat kind v.toNat)))) ∧
    (∀ n p, exec (.programChange n p) s =
      .next (surfaced s (.passthrough (.programChange n.toNat p.toNat)))) ∧
    (∀ n p, exec (.channelPressure n p) s =
      .next (surfaced s (.passthrough (.channelPressure n.toNat p.toNat)))) ∧
    (∀ n b, exec (.pitchBend n b) s = .next (surfaced s (.passthrough (.pitchBend n.toNat b)))) ∧
    (∀ t v, exec (.timeCode t v) s = .next (surfaced s (.passthrough (.timeCode t.toNat v.toNat)))) ∧
    (∀ p, exec (.songPositionPointer p) s =
      .next (surfaced s (.passthrough (.songPositionPointer p.toNat)))) ∧
    (∀ n, exec (.songSelect n) s = .next (surfaced s (.passthrough (.songSelect n.toNat)))) ∧
    exec .tuneRequest s = .next (surfaced s (.passthrough .tuneRequest)) ∧
    exec .clock s = .next (surfaced s (.passthrough .clock)) ∧
    exec .start s = .next (surfaced s (.passthrough .start)) ∧
    exec .continueMsg s = .next (surfaced s (.passthrough .continueMsg)) ∧
    exec .stop s = .next (surfaced s (.passthrough .stop)) ∧
    exec .activeSensing s = .next (surfaced s (.passthrough .activeSensing)) ∧
    exec .reset s = .next (surfaced s (.passthrough .reset)) ∧
    (∀ f m, decodeFrame f = .ok m → isSysEx m = false →
      exec (.evRx f) s = .next (surfaced s (.passthrough m)))

/-- R237, R272, R235 steps 3 and 4: a request that arrives, and a response that no pending request of its shape waits for,
is handed to the host, its checksum unverified. -/
def Obligations.UnmatchedDeviceMessagesSurface : Prop :=
  ∀ (dev : Byte) (s : State),
    exec (.identityRequest dev) s = .next (surfaced s (.identityRequest dev)) ∧
    (∀ a b c, exec (.readRequest dev a b c) s = .next (surfaced s (.readRequest dev a b c))) ∧
    (Shape.read ∉ s.order →
      ∀ a p c, exec (.dataSet dev a p c) s = .next (surfaced s (.dataSet dev a p c))) ∧
    (Shape.ident ∉ s.order →
      ∀ man f0 f1 n0 n1 r0 r1 r2 r3,
        exec (.identityReply dev man [f0, f1] [n0, n1] [r0, r1, r2, r3]) s = .next (surfaced s (.identityReply
          { deviceId := dev, manufacturer := man, familyBytes := [f0, f1], familyCode := f0 ++ f1,
            numberBytes := [n0, n1], familyNumberCode := n0 ++ n1,
            revBytes := [r0, r1, r2, r3], softwareRev := r0 ++ r1 ++ r2 ++ r3 })))

/-- R236, R231, R230, R57, R247: one reply completes a pending identity request, whatever its device-id, and carries the
record; the commands that wait for it are answered. Their order, oldest first, is the model's choice (log 10). -/
def Obligations.IdentityReplyCompletesTheRequest : Prop :=
  ∀ (dev man f0 f1 n0 n1 r0 r1 r2 r3 : Byte) (s : State), Shape.ident ∈ s.order →
    ∃ t, exec (.identityReply dev man [f0, f1] [n0, n1] [r0, r1, r2, r3]) s = .next t ∧
      requestEnded .ident
        { outcome := .completed, degraded := false, map := [],
          ident := some
            { deviceId := dev, manufacturer := man, familyBytes := [f0, f1], familyCode := f0 ++ f1,
              numberBytes := [n0, n1], familyNumberCode := n0 ++ n1,
              revBytes := [r0, r1, r2, r3], softwareRev := r0 ++ r1 ++ r2 ++ r3 } } none s t

/-- R236, R231, R232, R230, R253: a good chunk that completes the coverage ends the pending read with the fold of all its
chunks, wherever the chunk lies and whatever device-id it carries. That the commands held on the slot are answered oldest
first is the model's choice (log 10), and the capacity premise counts keys as the model reads R242 (log 22). -/
def Obligations.CoveringChunkCompletesTheRead : Prop :=
  ∀ (dev : Byte) (a : Digits) (p : List Byte) (s : State), Shape.read ∈ s.order →
    (p = [] ∨ toInt a + p.length - 1 < 2 ^ 28) →
    (foldChunks (s.slot0.partials ++ [⟨a, p⟩])).length ≤ Config.mapCap →
    regionCovered s.slot0.req (s.slot0.partials ++ [⟨a, p⟩]) →
      ∃ t, exec (.dataSet dev a p (checksumByte a p)) s = .next t ∧
        requestEnded .read
          { outcome := .completed, degraded := false, map := foldChunks (s.slot0.partials ++ [⟨a, p⟩]), ident := none }
          none s t

/-- R238, R230, R253: a good chunk that leaves the coverage incomplete is buffered, resets the idle counter and makes the
slot Completing, wherever the chunk lies; nothing else changes. The capacity premise counts keys as the model reads R242
(log 22). -/
def Obligations.PartialChunkIsBuffered : Prop :=
  ∀ (dev : Byte) (a : Digits) (p : List Byte) (s : State), Shape.read ∈ s.order →
    (p = [] ∨ toInt a + p.length - 1 < 2 ^ 28) →
    (foldChunks (s.slot0.partials ++ [⟨a, p⟩])).length ≤ Config.mapCap →
    ¬regionCovered s.slot0.req (s.slot0.partials ++ [⟨a, p⟩]) →
      exec (.dataSet dev a p (checksumByte a p)) s = .next
        { s with slot0 := { s.slot0 with st := .completing, idle := 0, partials := s.slot0.partials ++ [⟨a, p⟩] } }

/-- R241, R240, R242: a chunk with a wrong checksum ends the pending read in ChecksumMismatch; a chunk off the address space
and a chunk too many are reported and discarded. That the commands held on the slot are answered oldest first is the model's
choice (log 10), and the keys held against `MAP_CAP` are counted as the model reads R242 (log 22). -/
def Obligations.BadChunksFailOrAreDiscarded : Prop :=
  ∀ (dev : Byte) (a : Digits) (p : List Byte) (c : Byte) (s : State), Shape.read ∈ s.order →
    (c ≠ checksumByte a p →
      ∃ t, exec (.dataSet dev a p c) s = .next t ∧
        requestEnded .read { outcome := .checksumMismatch, degraded := false, map := [], ident := none } (some 3) s t) ∧
    (c = checksumByte a p → p ≠ [] → 2 ^ 28 ≤ toInt a + p.length - 1 →
      exec (.dataSet dev a p c) s = .next (rejected s .rangeError)) ∧
    (c = checksumByte a p → (p = [] ∨ toInt a + p.length - 1 < 2 ^ 28) →
      Config.mapCap < (foldChunks (s.slot0.partials ++ [⟨a, p⟩])).length →
      exec (.dataSet dev a p c) s = .next (rejected s .capacity))

/-- R55, R54: writing a run of bytes changes exactly those keys and keeps the canonical form, reading gives the bytes when
all are present, and the keys of a chunk are the addresses it covers. -/
def Obligations.MapPrimitives : Prop :=
  ∀ (m : Memory) (a : Digits) (p : List Byte),
    (∀ k, Memory.read (mapWrite m a p) k =
      if toInt a ≤ k ∧ k < toInt a + p.length then p[k - toInt a]? else Memory.read m k) ∧
    (Memory.wf m = true → (p = [] ∨ toInt a + p.length - 1 < 2 ^ 28) → Memory.wf (mapWrite m a p) = true) ∧
    (∀ n bs, mapRead m (toInt a) n = some bs ↔
      bs.length = n ∧ ∀ i, i < n → Memory.read m (toInt a + i) = bs[i]?) ∧
    (∀ k, k ∈ chunkKeys ⟨a, p⟩ ↔ toInt a ≤ k ∧ k < toInt a + p.length)

/-- R232: the fold of a chunk sequence reads, at every address, as the last chunk that covers the address, and holds no
other key. -/
def Obligations.FoldKeepsTheLaterChunk : Prop :=
  (∀ k, Memory.read (foldChunks []) k = none) ∧
  (∀ (cs : List Chunk) (c : Chunk) (k : Nat),
    (toInt c.addr ≤ k → k < toInt c.addr + c.data.length →
      Memory.read (foldChunks (cs ++ [c])) k = c.data[k - toInt c.addr]?) ∧
    (k < toInt c.addr ∨ toInt c.addr + c.data.length ≤ k →
      Memory.read (foldChunks (cs ++ [c])) k = Memory.read (foldChunks cs) k)) ∧
  (∀ cs : List Chunk, (∀ c ∈ cs, c.data = [] ∨ toInt c.addr + c.data.length - 1 < 2 ^ 28) →
    Memory.wf (foldChunks cs) = true)

/-! ### Time -/

/-- R244, R246, R274, R31: a tick examines slot 0 and then slot 1, counts in each pending slot with a timeout, and ends the
request of a slot whose counter exceeds its timeout. That the commands held on an expiring slot are answered oldest first is
the model's choice (log 10). -/
def Obligations.TickCountsAndExpires : Prop :=
  ∀ s : State, ∃ u t, ticked .read s u ∧ ticked .ident u t ∧ exec .evTick s = .next t

/-- R245, R252 (c): ticks alone expire a pending request with a timeout of `to` ticks at the tick that makes more than `to`
since the last activity, not one tick earlier: Salvaged when a partial is buffered, TimedOut when none is. -/
def Obligations.IdleTimeoutExpiresOnTime : Prop :=
  ∀ (s : State) (sh : Shape) (k : Nat) (rest : List Input),
    inv s = true → Pending (slotOf s sh) → (slotOf s sh).hasTo = true →
    k = (slotOf s sh).timeout.toNat + 1 - (slotOf s sh).idle.toNat →
    s.inputs = List.replicate k (.event .tick) ++ rest →
      (∀ j, j < k → ∃ t : State, Host.Core.run Sys2Proof.core j s = .next t ∧ Pending (slotOf t sh) ∧
        (slotOf t sh).idle.toNat = (slotOf s sh).idle.toNat + j) ∧
      ∃ t : State, Host.Core.run Sys2Proof.core k s = .next t ∧ sh ∉ t.order ∧
        (slotOf t sh).result = some (expiryRecord (slotOf s sh).partials) ∧
        (slotOf t sh).st = if (slotOf s sh).partials = [] then .timedOut else .salvaged

/-! ### The whole machine -/

/-- R45, R291, R290: what R45 says of the state after reset holds of `State.reset`, and the reset input brings it about
whatever was in progress. The request fields and the timeout, for which the spec gives no value, are not stated (log 8). The
model's choices: responses not yet taken are dropped, what is still to come and the counter of free values stay (log 11), and
commands are counted from 0 again (log 9). -/
def Obligations.ResetLeavesEverythingEmpty : Prop :=
  asAfterReset State.reset ∧ State.reset.responses = [] ∧
  ∀ (s : State) (rest : List Input), s.inputs = .resetInput :: rest →
    ∃ t, step s = .next t ∧ asAfterReset t ∧
      t.responses = [] ∧ t.issued = 0 ∧ t.inputs = rest ∧ t.free = s.free

/-- R33: the invariant and the capacity bound hold right after reset. R33 (e) speaks of the request fields too, whose values
there are the model's (log 8). -/
def Obligations.SlotInvariantsHoldAtReset : Prop := inv State.reset = true ∧ withinCapacity State.reset

/-- R33, R34, R36, R41, R222, R250: every step keeps the invariant of the slots, the registration order, the held commands
and FSR. -/
def Obligations.SlotInvariantsKeptByStep : Prop :=
  ∀ s t : State, inv s = true → step s = .next t → inv t = true

/-- R54, R242: every step keeps each slot's map within `MAP_CAP` keys, counted as the model reads R242 (log 22). -/
def Obligations.MapCapacityKeptByStep : Prop :=
  ∀ s t : State, withinCapacity s → step s = .next t → withinCapacity t

/-- R250: a slot changes its state only along the transitions of the table, by the kind of input. -/
def Obligations.SlotsFollowTheTransitionTable : Prop :=
  ∀ (s t : State) (i : Input) (rest : List Input) (sh : Shape),
    inv s = true → s.inputs = i :: rest → step s = .next t →
      legalMove i (slotOf s sh).st (slotOf t sh).st = true

/-- R251: a step raises one RESOLVE for a slot when it ends the slot's pending request, and none otherwise. -/
def Obligations.RequestResolvesExactlyOnce : Prop :=
  ∀ (s t : State) (i : Input) (rest : List Input) (sh : Shape),
    inv s = true → s.inputs = i :: rest → i ≠ .resetInput → i ≠ .takeNotification → step s = .next t →
      (Pending (slotOf s sh) → ¬Pending (slotOf t sh) →
        resolveCount sh t.notes = resolveCount sh s.notes + 1 ∧ sh ∉ t.order) ∧
      (¬Pending (slotOf s sh) ∨ Pending (slotOf t sh) → resolveCount sh t.notes = resolveCount sh s.notes)

/-- R41: the bits of FSR are set, never cleared, by any input but the reset input, which clears them. -/
def Obligations.FaultStatusIsSticky : Prop :=
  ∀ (s t : State) (i : Input) (rest : List Input), s.inputs = i :: rest → step s = .next t →
    (i ≠ .resetInput → ∀ j, s.fsr.getLsbD j = true → t.fsr.getLsbD j = true) ∧
    (i = .resetInput → t.fsr = 0)

/-- R41: no instruction but `SR.READ` depends on FSR; with another FSR it does the same, up to FSR itself. -/
def Obligations.EarlierFaultsChangeNoResult : Prop :=
  ∀ (i : Instr) (s t : State) (f : BitVec 12), (∀ n, i ≠ .srRead n) → exec i s = .next t →
    ∃ g, exec i { s with fsr := f } = .next { t with fsr := g }

/-- R276, R20, R21: a command other than `RQ.SENDR.*` and `RQ.CANCEL` changes no slot, and only `RQ.SENDU` among those puts
a frame on TX. -/
def Obligations.SlotsChangeOnlyThroughTheMatcher : Prop :=
  ∀ (i : Instr) (c : Command) (s t : State), encode i = .cmd c → exec i s = .next t →
    c.op ≠ 0x51 → c.op ≠ 0x52 → c.op ≠ 0x54 →
      t.slot0 = s.slot0 ∧ t.slot1 = s.slot1 ∧ t.order = s.order ∧ t.notes = s.notes ∧ t.inputs = s.inputs ∧
      (c.op ≠ 0x50 → t.tx = s.tx) ∧ (c.op ≠ 0x53 → t.held = s.held)

/-- R265, R266, R262, R297: every command but `RQ.GET` is answered in its own event; when it is answered with a fault, the
fault is one R262 lists for it and nothing but the FSR bit changed. That its response stands last, after those to commands it
released, is the model's choice (log 10). -/
def Obligations.CommandsAnswerInTheirOwnEvent : Prop :=
  ∀ (s : State) (c : Command) (rest : List Input), s.inputs = .event (.cmd c) :: rest → c.op ≠ 0x53 →
    ∃ t qs q, step s = .next t ∧ t.responses = s.responses ++ qs ++ [q] ∧ q.tag = s.issued ∧
      t.issued = s.issued + 1 ∧
      (q.st ≠ 0 → ∃ k ∈ listedFaults c.op.toNat, t = faulted { s with inputs := rest } k)

/-- R297: in a state that meets the invariant no step stops. -/
def Obligations.StepNeverStops : Prop := ∀ s : State, inv s = true → ∃ t, step s = .next t

/-- R191, R180, U5: every frame put on TX is a frame of the wire formats and fits `FRAME_MAX`. -/
def Obligations.TransmittedFramesAreWellFormed : Prop :=
  ∀ s t : State, (∀ f ∈ s.tx, frameWellFormed f = true ∧ f.length ≤ Config.frameMax) → step s = .next t →
    ∀ f ∈ t.tx, frameWellFormed f = true ∧ f.length ≤ Config.frameMax

end
end

