-- ==== Sys2Proof/Laws/Memory.lean ====
section
/-! SUPPORT. The sparse byte map: a read after a write of one key, and the canonical form, which every operation that makes
a map keeps (R54, R55). -/

namespace Sys2Proof.Machine

/-- `wf` as a proposition. -/
theorem Memory.wf_iff (m : Memory) :
    m.wf = true ↔ m.Pairwise (fun p q => p.1 < q.1) ∧ ∀ p ∈ m, p.1 < addressLimit := by
  simp [Memory.wf]

/-- The empty map, all the map there is at reset, is canonical. -/
theorem Memory.wf_nil : Memory.wf [] = true := rfl

/-- The keys of a written map are the old ones and the key written. -/
theorem Memory.key_write {m : Memory} {k : Nat} {b : Byte} {p : Host.Cell} (h : p ∈ m.write k b) :
    p.1 = k ∨ p ∈ m := by
  induction m with
  | nil => simp_all [Memory.write]
  | cons q rest ih =>
    simp only [Memory.write] at h
    split at h
    · simp only [List.mem_cons] at h ⊢
      rcases h with rfl | h | h <;> simp_all
    · split at h
      · simp only [List.mem_cons] at h ⊢
        rcases h with rfl | h <;> simp_all
      · simp only [List.mem_cons] at h ⊢
        rcases h with rfl | h
        · simp
        · rcases ih h with h | h <;> simp [h]

/-- A write of a key inside the address space keeps the canonical form. -/
theorem Memory.wf_write {m : Memory} {k : Nat} {b : Byte} (hm : m.wf = true) (hk : k < addressLimit) :
    (m.write k b).wf = true := by
  rw [Memory.wf_iff] at hm ⊢
  obtain ⟨hs, hb⟩ := hm
  refine ⟨?_, fun p hp => ?_⟩
  · clear hb
    induction m with
    | nil => simp [Memory.write]
    | cons q rest ih =>
      rw [List.pairwise_cons] at hs
      simp only [Memory.write]
      split
      · rename_i hlt
        refine List.pairwise_cons.2 ⟨fun p hp => ?_, List.pairwise_cons.2 hs⟩
        rcases List.mem_cons.1 hp with rfl | hp
        · exact hlt
        · exact lt_trans hlt (hs.1 p hp)
      · split
        · rename_i heq
          exact List.pairwise_cons.2 ⟨fun p hp => heq ▸ hs.1 p hp, hs.2⟩
        · rename_i hlt hne
          refine List.pairwise_cons.2 ⟨fun p hp => ?_, ih hs.2⟩
          rcases Memory.key_write hp with h | h
          · rw [h]; omega
          · exact hs.1 p h
  · rcases Memory.key_write hp with h | h
    · rw [h]; exact hk
    · exact hb p h

/-- A run of writes inside the address space keeps the canonical form. -/
theorem Memory.wf_writeFrom {m : Memory} {k : Nat} {data : List Byte} (hm : m.wf = true)
    (hk : data = [] ∨ k + data.length - 1 < addressLimit) : (m.writeFrom k data).wf = true := by
  induction data generalizing m k with
  | nil => exact hm
  | cons b bs ih =>
    simp only [List.length_cons, reduceCtorEq, false_or] at hk
    refine ih (Memory.wf_write hm (by omega)) ?_
    rcases bs with _ | ⟨c, cs⟩
    · exact .inl rfl
    · simp only [List.length_cons] at hk ⊢; right; omega

/-- `MapWrite` of a chunk inside the address space keeps the canonical form. -/
theorem mapWrite_wf {m : Memory} {c : Chunk} (hm : m.wf = true) (hc : chunkInSpace c = true) :
    (mapWrite m c.addr c.data).wf = true := by
  refine Memory.wf_writeFrom hm ?_
  simpa [chunkInSpace] using hc

/-- The fold of chunks inside the address space is canonical. -/
theorem foldChunks_wf {cs : List Chunk} (h : ∀ c ∈ cs, chunkInSpace c = true) : (foldChunks cs).wf = true := by
  suffices ∀ m : Memory, m.wf = true → (cs.foldl (fun m c => mapWrite m c.addr c.data) m).wf = true from
    this [] Memory.wf_nil
  induction cs with
  | nil => exact fun _ hm => hm
  | cons c cs ih =>
    intro m hm
    exact ih (fun d hd => h d (List.mem_cons_of_mem _ hd)) _ (mapWrite_wf hm (h c List.mem_cons_self))

/-- Reading the key just written gives the byte written. -/
theorem Memory.read_write_same (m : Memory) (k : Nat) (b : Byte) : (m.write k b).read k = some b := by
  induction m with
  | nil => simp [Memory.write, Memory.read]
  | cons q rest ih =>
    simp only [Memory.write]
    split
    · simp [Memory.read]
    · split
      · simp [Memory.read]
      · rename_i h1 h2
        have : q.1 ≠ k := fun h => h2 h.symm
        simp [Memory.read, this, ih]

/-- A write leaves every other key alone. -/
theorem Memory.read_write_other (m : Memory) {k j : Nat} (b : Byte) (h : j ≠ k) :
    (m.write k b).read j = m.read j := by
  induction m with
  | nil => simp [Memory.write, Memory.read, h.symm]
  | cons q rest ih =>
    simp only [Memory.write]
    split
    · simp [Memory.read, h.symm]
    · split
      · rename_i h2
        simp [Memory.read, ← h2, h.symm]
      · by_cases hq : q.1 = j <;> simp [Memory.read, hq, ih]

/-- Writing above every key appends. -/
theorem Memory.write_above {m : Memory} {k : Nat} (b : Byte) (h : ∀ p ∈ m, p.1 < k) : m.write k b = m ++ [(k, b)] := by
  induction m with
  | nil => rfl
  | cons p rest ih =>
    have hp := h p (List.mem_cons_self ..)
    simp only [Memory.write, if_neg (Nat.lt_asymm hp), if_neg (Nat.ne_of_gt hp)]
    rw [ih fun q hq => h q (List.mem_cons_of_mem _ hq)]
    rfl

/-- A run of bytes written above every key adds as many keys as it has bytes. -/
theorem Memory.length_writeFrom {m : Memory} {k : Nat} {data : List Byte} (h : ∀ p ∈ m, p.1 < k) :
    (m.writeFrom k data).length = m.length + data.length := by
  induction data generalizing m k with
  | nil => rfl
  | cons b bs ih =>
    rw [Memory.writeFrom, ih, Memory.write_above b h]
    · simp only [List.length_append, List.length_cons, List.length_nil]; omega
    · intro p hp
      rw [Memory.write_above b h] at hp
      rcases List.mem_append.1 hp with hp | hp
      · exact Nat.lt_succ_of_lt (h p hp)
      · obtain rfl := List.mem_singleton.1 hp
        exact Nat.lt_succ_self k

end Sys2Proof.Machine
end

