-- ==== Sys2Proof/Laws/State.lean ====
section
/-! SUPPORT. The small lemmas of the state: what each named update makes of each field, so that no proof unfolds one. -/

namespace Sys2Proof.Machine

@[simp] theorem emitTx_slot0 (f : Frame) (s : State) : (emitTx f s).slot0 = s.slot0 := rfl
@[simp] theorem emitTx_slot1 (f : Frame) (s : State) : (emitTx f s).slot1 = s.slot1 := rfl
@[simp] theorem emitTx_order (f : Frame) (s : State) : (emitTx f s).order = s.order := rfl
@[simp] theorem emitTx_fsr (f : Frame) (s : State) : (emitTx f s).fsr = s.fsr := rfl
@[simp] theorem emitTx_tx (f : Frame) (s : State) : (emitTx f s).tx = s.tx ++ [f] := rfl
@[simp] theorem emitTx_notes (f : Frame) (s : State) : (emitTx f s).notes = s.notes := rfl
@[simp] theorem emitTx_responses (f : Frame) (s : State) : (emitTx f s).responses = s.responses := rfl
@[simp] theorem emitTx_held (f : Frame) (s : State) : (emitTx f s).held = s.held := rfl
@[simp] theorem emitTx_issued (f : Frame) (s : State) : (emitTx f s).issued = s.issued := rfl
@[simp] theorem emitTx_free (f : Frame) (s : State) : (emitTx f s).free = s.free := rfl
@[simp] theorem emitTx_inputs (f : Frame) (s : State) : (emitTx f s).inputs = s.inputs := rfl

@[simp] theorem notify_slot0 (n : Notification) (s : State) : (notify n s).slot0 = s.slot0 := rfl
@[simp] theorem notify_slot1 (n : Notification) (s : State) : (notify n s).slot1 = s.slot1 := rfl
@[simp] theorem notify_order (n : Notification) (s : State) : (notify n s).order = s.order := rfl
@[simp] theorem notify_fsr (n : Notification) (s : State) : (notify n s).fsr = s.fsr := rfl
@[simp] theorem notify_tx (n : Notification) (s : State) : (notify n s).tx = s.tx := rfl
@[simp] theorem notify_notes (n : Notification) (s : State) : (notify n s).notes = s.notes ++ [n] := rfl
@[simp] theorem notify_responses (n : Notification) (s : State) : (notify n s).responses = s.responses := rfl
@[simp] theorem notify_held (n : Notification) (s : State) : (notify n s).held = s.held := rfl
@[simp] theorem notify_issued (n : Notification) (s : State) : (notify n s).issued = s.issued := rfl
@[simp] theorem notify_free (n : Notification) (s : State) : (notify n s).free = s.free := rfl
@[simp] theorem notify_inputs (n : Notification) (s : State) : (notify n s).inputs = s.inputs := rfl

@[simp] theorem recordFault_slot0 (k : FaultKind) (s : State) : (recordFault k s).slot0 = s.slot0 := rfl
@[simp] theorem recordFault_slot1 (k : FaultKind) (s : State) : (recordFault k s).slot1 = s.slot1 := rfl
@[simp] theorem recordFault_order (k : FaultKind) (s : State) : (recordFault k s).order = s.order := rfl
@[simp] theorem recordFault_fsr (k : FaultKind) (s : State) : (recordFault k s).fsr = fsrWith s.fsr (faultCode k) := rfl
@[simp] theorem recordFault_tx (k : FaultKind) (s : State) : (recordFault k s).tx = s.tx := rfl
@[simp] theorem recordFault_notes (k : FaultKind) (s : State) : (recordFault k s).notes = s.notes := rfl
@[simp] theorem recordFault_responses (k : FaultKind) (s : State) : (recordFault k s).responses = s.responses := rfl
@[simp] theorem recordFault_held (k : FaultKind) (s : State) : (recordFault k s).held = s.held := rfl
@[simp] theorem recordFault_issued (k : FaultKind) (s : State) : (recordFault k s).issued = s.issued := rfl
@[simp] theorem recordFault_free (k : FaultKind) (s : State) : (recordFault k s).free = s.free := rfl
@[simp] theorem recordFault_inputs (k : FaultKind) (s : State) : (recordFault k s).inputs = s.inputs := rfl

@[simp] theorem respond_slot0 (r : ResultSlots) (s : State) : (respond r s).slot0 = s.slot0 := rfl
@[simp] theorem respond_slot1 (r : ResultSlots) (s : State) : (respond r s).slot1 = s.slot1 := rfl
@[simp] theorem respond_order (r : ResultSlots) (s : State) : (respond r s).order = s.order := rfl
@[simp] theorem respond_fsr (r : ResultSlots) (s : State) : (respond r s).fsr = s.fsr := rfl
@[simp] theorem respond_tx (r : ResultSlots) (s : State) : (respond r s).tx = s.tx := rfl
@[simp] theorem respond_notes (r : ResultSlots) (s : State) : (respond r s).notes = s.notes := rfl
@[simp] theorem respond_responses (r : ResultSlots) (s : State) : (respond r s).responses = s.responses ++ [⟨s.issued, 0, r⟩] := rfl
@[simp] theorem respond_held (r : ResultSlots) (s : State) : (respond r s).held = s.held := rfl
@[simp] theorem respond_issued (r : ResultSlots) (s : State) : (respond r s).issued = s.issued + 1 := rfl
@[simp] theorem respond_free (r : ResultSlots) (s : State) : (respond r s).free = s.free := rfl
@[simp] theorem respond_inputs (r : ResultSlots) (s : State) : (respond r s).inputs = s.inputs := rfl

@[simp] theorem raiseFault_slot0 (k : FaultKind) (s : State) : (raiseFault k s).slot0 = s.slot0 := rfl
@[simp] theorem raiseFault_slot1 (k : FaultKind) (s : State) : (raiseFault k s).slot1 = s.slot1 := rfl
@[simp] theorem raiseFault_order (k : FaultKind) (s : State) : (raiseFault k s).order = s.order := rfl
@[simp] theorem raiseFault_fsr (k : FaultKind) (s : State) : (raiseFault k s).fsr = fsrWith s.fsr (faultCode k) := rfl
@[simp] theorem raiseFault_tx (k : FaultKind) (s : State) : (raiseFault k s).tx = s.tx := rfl
@[simp] theorem raiseFault_notes (k : FaultKind) (s : State) : (raiseFault k s).notes = s.notes := rfl
@[simp] theorem raiseFault_responses (k : FaultKind) (s : State) : (raiseFault k s).responses = s.responses ++ [⟨s.issued, statusOf k, Config.undefinedResults s.free⟩] := rfl
@[simp] theorem raiseFault_held (k : FaultKind) (s : State) : (raiseFault k s).held = s.held := rfl
@[simp] theorem raiseFault_issued (k : FaultKind) (s : State) : (raiseFault k s).issued = s.issued + 1 := rfl
@[simp] theorem raiseFault_free (k : FaultKind) (s : State) : (raiseFault k s).free = s.free + 1 := rfl
@[simp] theorem raiseFault_inputs (k : FaultKind) (s : State) : (raiseFault k s).inputs = s.inputs := rfl

@[simp] theorem rxError_slot0 (k : FaultKind) (s : State) : (rxError k s).slot0 = s.slot0 := rfl
@[simp] theorem rxError_slot1 (k : FaultKind) (s : State) : (rxError k s).slot1 = s.slot1 := rfl
@[simp] theorem rxError_order (k : FaultKind) (s : State) : (rxError k s).order = s.order := rfl
@[simp] theorem rxError_fsr (k : FaultKind) (s : State) : (rxError k s).fsr = fsrWith s.fsr (faultCode k) := rfl
@[simp] theorem rxError_tx (k : FaultKind) (s : State) : (rxError k s).tx = s.tx := rfl
@[simp] theorem rxError_notes (k : FaultKind) (s : State) : (rxError k s).notes = s.notes ++ [.rxerr k] := rfl
@[simp] theorem rxError_responses (k : FaultKind) (s : State) : (rxError k s).responses = s.responses := rfl
@[simp] theorem rxError_held (k : FaultKind) (s : State) : (rxError k s).held = s.held := rfl
@[simp] theorem rxError_issued (k : FaultKind) (s : State) : (rxError k s).issued = s.issued := rfl
@[simp] theorem rxError_free (k : FaultKind) (s : State) : (rxError k s).free = s.free := rfl
@[simp] theorem rxError_inputs (k : FaultKind) (s : State) : (rxError k s).inputs = s.inputs := rfl

@[simp] theorem countCommand_slot0 (s : State) : (countCommand s).slot0 = s.slot0 := rfl
@[simp] theorem countCommand_slot1 (s : State) : (countCommand s).slot1 = s.slot1 := rfl
@[simp] theorem countCommand_order (s : State) : (countCommand s).order = s.order := rfl
@[simp] theorem countCommand_fsr (s : State) : (countCommand s).fsr = s.fsr := rfl
@[simp] theorem countCommand_tx (s : State) : (countCommand s).tx = s.tx := rfl
@[simp] theorem countCommand_notes (s : State) : (countCommand s).notes = s.notes := rfl
@[simp] theorem countCommand_responses (s : State) : (countCommand s).responses = s.responses := rfl
@[simp] theorem countCommand_held (s : State) : (countCommand s).held = s.held := rfl
@[simp] theorem countCommand_issued (s : State) : (countCommand s).issued = s.issued + 1 := rfl
@[simp] theorem countCommand_free (s : State) : (countCommand s).free = s.free := rfl
@[simp] theorem countCommand_inputs (s : State) : (countCommand s).inputs = s.inputs := rfl

@[simp] theorem holdGet_slot0 (sh : Shape) (s : State) : (holdGet sh s).slot0 = s.slot0 := rfl
@[simp] theorem holdGet_slot1 (sh : Shape) (s : State) : (holdGet sh s).slot1 = s.slot1 := rfl
@[simp] theorem holdGet_order (sh : Shape) (s : State) : (holdGet sh s).order = s.order := rfl
@[simp] theorem holdGet_fsr (sh : Shape) (s : State) : (holdGet sh s).fsr = s.fsr := rfl
@[simp] theorem holdGet_tx (sh : Shape) (s : State) : (holdGet sh s).tx = s.tx := rfl
@[simp] theorem holdGet_notes (sh : Shape) (s : State) : (holdGet sh s).notes = s.notes := rfl
@[simp] theorem holdGet_responses (sh : Shape) (s : State) : (holdGet sh s).responses = s.responses := rfl
@[simp] theorem holdGet_held (sh : Shape) (s : State) : (holdGet sh s).held = s.held ++ [⟨s.issued, sh⟩] := rfl
@[simp] theorem holdGet_issued (sh : Shape) (s : State) : (holdGet sh s).issued = s.issued + 1 := rfl
@[simp] theorem holdGet_free (sh : Shape) (s : State) : (holdGet sh s).free = s.free := rfl
@[simp] theorem holdGet_inputs (sh : Shape) (s : State) : (holdGet sh s).inputs = s.inputs := rfl

@[simp] theorem withInputs_slot0 (l : List Input) (s : State) : (withInputs l s).slot0 = s.slot0 := rfl
@[simp] theorem withInputs_slot1 (l : List Input) (s : State) : (withInputs l s).slot1 = s.slot1 := rfl
@[simp] theorem withInputs_order (l : List Input) (s : State) : (withInputs l s).order = s.order := rfl
@[simp] theorem withInputs_fsr (l : List Input) (s : State) : (withInputs l s).fsr = s.fsr := rfl
@[simp] theorem withInputs_tx (l : List Input) (s : State) : (withInputs l s).tx = s.tx := rfl
@[simp] theorem withInputs_notes (l : List Input) (s : State) : (withInputs l s).notes = s.notes := rfl
@[simp] theorem withInputs_responses (l : List Input) (s : State) : (withInputs l s).responses = s.responses := rfl
@[simp] theorem withInputs_held (l : List Input) (s : State) : (withInputs l s).held = s.held := rfl
@[simp] theorem withInputs_issued (l : List Input) (s : State) : (withInputs l s).issued = s.issued := rfl
@[simp] theorem withInputs_free (l : List Input) (s : State) : (withInputs l s).free = s.free := rfl
@[simp] theorem withInputs_inputs (l : List Input) (s : State) : (withInputs l s).inputs = l := rfl

@[simp] theorem takeTx_slot0 (s : State) : (takeTx s).slot0 = s.slot0 := rfl
@[simp] theorem takeTx_slot1 (s : State) : (takeTx s).slot1 = s.slot1 := rfl
@[simp] theorem takeTx_order (s : State) : (takeTx s).order = s.order := rfl
@[simp] theorem takeTx_fsr (s : State) : (takeTx s).fsr = s.fsr := rfl
@[simp] theorem takeTx_tx (s : State) : (takeTx s).tx = s.tx.drop 1 := rfl
@[simp] theorem takeTx_notes (s : State) : (takeTx s).notes = s.notes := rfl
@[simp] theorem takeTx_responses (s : State) : (takeTx s).responses = s.responses := rfl
@[simp] theorem takeTx_held (s : State) : (takeTx s).held = s.held := rfl
@[simp] theorem takeTx_issued (s : State) : (takeTx s).issued = s.issued := rfl
@[simp] theorem takeTx_free (s : State) : (takeTx s).free = s.free := rfl
@[simp] theorem takeTx_inputs (s : State) : (takeTx s).inputs = s.inputs := rfl

@[simp] theorem takeNotification_slot0 (s : State) : (takeNotification s).slot0 = s.slot0 := rfl
@[simp] theorem takeNotification_slot1 (s : State) : (takeNotification s).slot1 = s.slot1 := rfl
@[simp] theorem takeNotification_order (s : State) : (takeNotification s).order = s.order := rfl
@[simp] theorem takeNotification_fsr (s : State) : (takeNotification s).fsr = s.fsr := rfl
@[simp] theorem takeNotification_tx (s : State) : (takeNotification s).tx = s.tx := rfl
@[simp] theorem takeNotification_notes (s : State) : (takeNotification s).notes = s.notes.drop 1 := rfl
@[simp] theorem takeNotification_responses (s : State) : (takeNotification s).responses = s.responses := rfl
@[simp] theorem takeNotification_held (s : State) : (takeNotification s).held = s.held := rfl
@[simp] theorem takeNotification_issued (s : State) : (takeNotification s).issued = s.issued := rfl
@[simp] theorem takeNotification_free (s : State) : (takeNotification s).free = s.free := rfl
@[simp] theorem takeNotification_inputs (s : State) : (takeNotification s).inputs = s.inputs := rfl

@[simp] theorem takeResponse_slot0 (s : State) : (takeResponse s).slot0 = s.slot0 := rfl
@[simp] theorem takeResponse_slot1 (s : State) : (takeResponse s).slot1 = s.slot1 := rfl
@[simp] theorem takeResponse_order (s : State) : (takeResponse s).order = s.order := rfl
@[simp] theorem takeResponse_fsr (s : State) : (takeResponse s).fsr = s.fsr := rfl
@[simp] theorem takeResponse_tx (s : State) : (takeResponse s).tx = s.tx := rfl
@[simp] theorem takeResponse_notes (s : State) : (takeResponse s).notes = s.notes := rfl
@[simp] theorem takeResponse_responses (s : State) : (takeResponse s).responses = s.responses.drop 1 := rfl
@[simp] theorem takeResponse_held (s : State) : (takeResponse s).held = s.held := rfl
@[simp] theorem takeResponse_issued (s : State) : (takeResponse s).issued = s.issued := rfl
@[simp] theorem takeResponse_free (s : State) : (takeResponse s).free = s.free := rfl
@[simp] theorem takeResponse_inputs (s : State) : (takeResponse s).inputs = s.inputs := rfl

@[simp] theorem setSlot_read_slot0 (s : State) (sl : Slot) : (setSlot s .read sl).slot0 = sl := rfl
@[simp] theorem setSlot_read_slot1 (s : State) (sl : Slot) : (setSlot s .read sl).slot1 = s.slot1 := rfl
@[simp] theorem setSlot_read_order (s : State) (sl : Slot) : (setSlot s .read sl).order = s.order := rfl
@[simp] theorem setSlot_read_fsr (s : State) (sl : Slot) : (setSlot s .read sl).fsr = s.fsr := rfl
@[simp] theorem setSlot_read_tx (s : State) (sl : Slot) : (setSlot s .read sl).tx = s.tx := rfl
@[simp] theorem setSlot_read_notes (s : State) (sl : Slot) : (setSlot s .read sl).notes = s.notes := rfl
@[simp] theorem setSlot_read_responses (s : State) (sl : Slot) : (setSlot s .read sl).responses = s.responses := rfl
@[simp] theorem setSlot_read_held (s : State) (sl : Slot) : (setSlot s .read sl).held = s.held := rfl
@[simp] theorem setSlot_read_issued (s : State) (sl : Slot) : (setSlot s .read sl).issued = s.issued := rfl
@[simp] theorem setSlot_read_free (s : State) (sl : Slot) : (setSlot s .read sl).free = s.free := rfl
@[simp] theorem setSlot_read_inputs (s : State) (sl : Slot) : (setSlot s .read sl).inputs = s.inputs := rfl

@[simp] theorem setSlot_ident_slot0 (s : State) (sl : Slot) : (setSlot s .ident sl).slot0 = s.slot0 := rfl
@[simp] theorem setSlot_ident_slot1 (s : State) (sl : Slot) : (setSlot s .ident sl).slot1 = sl := rfl
@[simp] theorem setSlot_ident_order (s : State) (sl : Slot) : (setSlot s .ident sl).order = s.order := rfl
@[simp] theorem setSlot_ident_fsr (s : State) (sl : Slot) : (setSlot s .ident sl).fsr = s.fsr := rfl
@[simp] theorem setSlot_ident_tx (s : State) (sl : Slot) : (setSlot s .ident sl).tx = s.tx := rfl
@[simp] theorem setSlot_ident_notes (s : State) (sl : Slot) : (setSlot s .ident sl).notes = s.notes := rfl
@[simp] theorem setSlot_ident_responses (s : State) (sl : Slot) : (setSlot s .ident sl).responses = s.responses := rfl
@[simp] theorem setSlot_ident_held (s : State) (sl : Slot) : (setSlot s .ident sl).held = s.held := rfl
@[simp] theorem setSlot_ident_issued (s : State) (sl : Slot) : (setSlot s .ident sl).issued = s.issued := rfl
@[simp] theorem setSlot_ident_free (s : State) (sl : Slot) : (setSlot s .ident sl).free = s.free := rfl
@[simp] theorem setSlot_ident_inputs (s : State) (sl : Slot) : (setSlot s .ident sl).inputs = s.inputs := rfl

@[simp] theorem applyReset_slot0 (s : State) : (applyReset s).slot0 = Slot.reset := rfl
@[simp] theorem applyReset_slot1 (s : State) : (applyReset s).slot1 = Slot.reset := rfl
@[simp] theorem applyReset_order (s : State) : (applyReset s).order = [] := rfl
@[simp] theorem applyReset_fsr (s : State) : (applyReset s).fsr = 0 := rfl
@[simp] theorem applyReset_tx (s : State) : (applyReset s).tx = [] := rfl
@[simp] theorem applyReset_notes (s : State) : (applyReset s).notes = [] := rfl
@[simp] theorem applyReset_responses (s : State) : (applyReset s).responses = [] := rfl
@[simp] theorem applyReset_held (s : State) : (applyReset s).held = [] := rfl
@[simp] theorem applyReset_issued (s : State) : (applyReset s).issued = 0 := rfl
@[simp] theorem applyReset_free (s : State) : (applyReset s).free = s.free := rfl
@[simp] theorem applyReset_inputs (s : State) : (applyReset s).inputs = s.inputs := rfl

@[simp] theorem slotOf_read (s : State) : slotOf s .read = s.slot0 := rfl
@[simp] theorem slotOf_ident (s : State) : slotOf s .ident = s.slot1 := rfl

/-- The slot just set reads as set. -/
@[simp] theorem slotOf_setSlot_same (s : State) (sh : Shape) (sl : Slot) : slotOf (setSlot s sh sl) sh = sl := by
  cases sh <;> rfl

/-- Setting one slot leaves the other alone. -/
theorem slotOf_setSlot_other (s : State) (sl : Slot) {sh sh' : Shape} (h : sh' ≠ sh) :
    slotOf (setSlot s sh sl) sh' = slotOf s sh' := by
  cases sh <;> cases sh' <;> first | rfl | exact absurd rfl h

/-- Setting a slot changes nothing else. -/
theorem setSlot_frame (s : State) (sh : Shape) (sl : Slot) :
    (setSlot s sh sl).order = s.order ∧ (setSlot s sh sl).fsr = s.fsr ∧ (setSlot s sh sl).tx = s.tx ∧
    (setSlot s sh sl).notes = s.notes ∧ (setSlot s sh sl).responses = s.responses ∧
    (setSlot s sh sl).held = s.held ∧ (setSlot s sh sl).issued = s.issued ∧ (setSlot s sh sl).free = s.free ∧
    (setSlot s sh sl).inputs = s.inputs := by
  cases sh <;> exact ⟨rfl, rfl, rfl, rfl, rfl, rfl, rfl, rfl, rfl⟩

end Sys2Proof.Machine
end

