-- ==== Sys2Proof/Laws/Ops.lean ====
section
/-! SUPPORT. One lemma per shared operation that says once everything it can do; proofs cite these and do not unfold. -/

namespace Sys2Proof.Machine

/-- What no answer to a held command touches: slots, registration order, ports other than the responses. -/
def sameMatcher (s t : State) : Prop :=
  t.slot0 = s.slot0 ∧ t.slot1 = s.slot1 ∧ t.order = s.order ∧ t.tx = s.tx ∧ t.notes = s.notes ∧
  t.issued = s.issued ∧ t.inputs = s.inputs

/-- An operation that only computes answers with its slots or takes its fault. -/
theorem answer_cases (r : Except FaultKind ResultSlots) (s : State) :
    (∃ slots, r = .ok slots ∧ answer r s = .next (respond slots s)) ∨
    (∃ k, r = .error k ∧ answer r s = .next (raiseFault k s)) := by
  cases r with
  | ok slots => exact .inl ⟨slots, rfl, rfl⟩
  | error k => exact .inr ⟨k, rfl, rfl⟩

/-- Setting an FSR bit clears none. -/
theorem fsrWith_keeps {fsr : BitVec 12} {i j : Nat} (h : fsr.getLsbD j = true) :
    (fsrWith fsr i).getLsbD j = true := by
  simp [fsrWith, h]

/-- The outcome of a request clears no FSR bit. -/
theorem fsrAfter_keeps {fsr : BitVec 12} {o : RequestOutcome} {j : Nat} (h : fsr.getLsbD j = true) :
    (fsrAfter fsr o).getLsbD j = true := by
  unfold fsrAfter
  split
  · exact h
  · exact fsrWith_keeps h

/-- No fault code names bit 0, so taking a fault leaves it clear. -/
theorem fsrWith_faultCode_zero {fsr : BitVec 12} (k : FaultKind) (h : fsr.getLsbD 0 = false) :
    (fsrWith fsr (faultCode k)).getLsbD 0 = false := by
  cases k <;> simpa [fsrWith, faultCode] using h

/-- No outcome sets bit 0 of FSR. -/
theorem fsrAfter_zero {fsr : BitVec 12} (o : RequestOutcome) (h : fsr.getLsbD 0 = false) :
    (fsrAfter fsr o).getLsbD 0 = false := by
  cases o <;> simpa [fsrAfter, outcomeBit, fsrWith, faultCode, degradedBit] using h

/-- An answer to `RQ.GET` adds one response with its tag, the outcome's status and the result record. -/
theorem answerGet_spec (tag : Nat) (r : ResultRecord) (s : State) :
    sameMatcher s (answerGet tag r s) ∧ (answerGet tag r s).held = s.held ∧
    ∃ q : Response, (answerGet tag r s).responses = s.responses ++ [q] ∧ q.tag = tag ∧
      q.st = ((outcomeFault r.outcome).map statusOf).getD 0 ∧ q.results.rres = some r := by
  unfold answerGet
  split
  · rename_i h
    exact ⟨⟨rfl, rfl, rfl, rfl, rfl, rfl, rfl⟩, rfl, _, rfl, rfl, by simp [h], rfl⟩
  · rename_i k h
    exact ⟨⟨rfl, rfl, rfl, rfl, rfl, rfl, rfl⟩, rfl, _, rfl, rfl, by simp [h], rfl⟩

/-- FSR after an answer to `RQ.GET`: the bit of the outcome's fault, when it has one. -/
theorem answerGet_fsr (tag : Nat) (r : ResultRecord) (s : State) :
    (answerGet tag r s).fsr = ((outcomeFault r.outcome).map fun k => fsrWith s.fsr (faultCode k)).getD s.fsr := by
  unfold answerGet
  split <;> rename_i h <;> simp [h, recordFault]

/-- Answering a list of held commands. -/
theorem foldl_answerGet_spec (r : ResultRecord) (hs : List HeldGet) (s : State) :
    let t := hs.foldl (fun t h => answerGet h.tag r t) s
    sameMatcher s t ∧ t.held = s.held ∧ ∃ qs : List Response, t.responses = s.responses ++ qs ∧
      qs.map (·.tag) = hs.map (·.tag) ∧
      ∀ q ∈ qs, q.st = ((outcomeFault r.outcome).map statusOf).getD 0 ∧ q.results.rres = some r := by
  induction hs generalizing s with
  | nil => exact ⟨⟨rfl, rfl, rfl, rfl, rfl, rfl, rfl⟩, rfl, [], by simp⟩
  | cons h hs ih =>
    obtain ⟨⟨a0, a1, a2, a3, a4, a5, a6⟩, ah, q, hq, ht, hst, hr⟩ := answerGet_spec h.tag r s
    obtain ⟨⟨b0, b1, b2, b3, b4, b5, b6⟩, bh, qs, hqs, hts, hall⟩ := ih (answerGet h.tag r s)
    refine ⟨⟨b0.trans a0, b1.trans a1, b2.trans a2, b3.trans a3, b4.trans a4, b5.trans a5, b6.trans a6⟩,
      bh.trans ah, q :: qs, ?_, ?_, ?_⟩
    · simpa [hq] using hqs
    · simp [ht, hts]
    · intro x hx
      rcases List.mem_cons.1 hx with rfl | hx
      · exact ⟨hst, hr⟩
      · exact hall x hx

/-- Releasing the commands held on a slot: each gets one response with the slot's result, the others go on holding, and the
matcher is untouched. -/
theorem releaseHeld_spec (sh : Shape) (r : ResultRecord) (s : State) :
    sameMatcher s (releaseHeld sh r s) ∧
    (releaseHeld sh r s).held = s.held.filter (fun h => h.slot ≠ sh) ∧
    ∃ qs : List Response, (releaseHeld sh r s).responses = s.responses ++ qs ∧
      qs.map (·.tag) = (s.held.filter fun h => h.slot = sh).map (·.tag) ∧
      ∀ q ∈ qs, q.st = ((outcomeFault r.outcome).map statusOf).getD 0 ∧ q.results.rres = some r :=
  foldl_answerGet_spec r (s.held.filter fun h => h.slot = sh)
    { s with held := s.held.filter fun h => h.slot ≠ sh }

/-- Settling a slot: the slot, its place in `order`, FSR and one RESOLVE; nothing else. -/
theorem settle_spec (sh : Shape) (r : ResultRecord) (s : State) :
    slotOf (settle sh r s) sh =
      { slotOf s sh with st := outcomeState r.outcome, partials := [], result := some r } ∧
    (∀ sh', sh' ≠ sh → slotOf (settle sh r s) sh' = slotOf s sh') ∧
    (settle sh r s).order = s.order.filter (· ≠ sh) ∧ (settle sh r s).fsr = fsrAfter s.fsr r.outcome ∧
    (settle sh r s).notes = s.notes ++ [.resolve sh r.outcome] ∧ (settle sh r s).tx = s.tx ∧
    (settle sh r s).responses = s.responses ∧ (settle sh r s).held = s.held ∧
    (settle sh r s).issued = s.issued ∧ (settle sh r s).free = s.free ∧ (settle sh r s).inputs = s.inputs := by
  cases sh <;> refine ⟨rfl, ?_, rfl, rfl, rfl, rfl, rfl, rfl, rfl, rfl, rfl⟩ <;> intro sh' h <;> cases sh' <;>
    first | rfl | exact absurd rfl h

/-- The end of a request, in full but for FSR and the counter of free values. -/
theorem resolve_spec (sh : Shape) (r : ResultRecord) (s : State) :
    slotOf (resolve sh r s) sh =
      { slotOf s sh with st := outcomeState r.outcome, partials := [], result := some r } ∧
    (∀ sh', sh' ≠ sh → slotOf (resolve sh r s) sh' = slotOf s sh') ∧
    (resolve sh r s).order = s.order.filter (· ≠ sh) ∧
    (resolve sh r s).notes = s.notes ++ [.resolve sh r.outcome] ∧ (resolve sh r s).tx = s.tx ∧
    (resolve sh r s).held = s.held.filter (fun h => h.slot ≠ sh) ∧ (resolve sh r s).issued = s.issued ∧
    (resolve sh r s).inputs = s.inputs ∧
    ∃ qs : List Response, (resolve sh r s).responses = s.responses ++ qs ∧
      qs.map (·.tag) = (s.held.filter fun h => h.slot = sh).map (·.tag) ∧
      ∀ q ∈ qs, q.st = ((outcomeFault r.outcome).map statusOf).getD 0 ∧ q.results.rres = some r := by
  obtain ⟨c1, c2, c3, -, c5, c6, c7, c8, c9, -, c11⟩ := settle_spec sh r s
  obtain ⟨⟨a0, a1, a2, a3, a4, a5, a6⟩, ah, qs, hqs, ht, hall⟩ := releaseHeld_spec sh r (settle sh r s)
  have hslot : ∀ sh', slotOf (resolve sh r s) sh' = slotOf (settle sh r s) sh' := by
    intro sh'; cases sh'
    · exact a0
    · exact a1
  refine ⟨(hslot sh).trans c1, fun sh' h => (hslot sh').trans (c2 sh' h), a2.trans c3, a4.trans c5, a3.trans c6, ?_,
    a5.trans c9, a6.trans c11, qs, ?_, ?_, hall⟩
  · exact ah.trans (by rw [c8])
  · exact hqs.trans (by rw [c7])
  · rw [ht, c8]

/-- Registration: the slot, `order` and one frame; nothing else. -/
theorem registerRequest_spec (sh : Shape) (req : Request) (t : Timeout) (f : Frame) (s : State) :
    slotOf (registerRequest sh req t f s) sh =
      { st := .sent, req := req, hasTo := t.has, timeout := t.ticks, idle := 0, partials := [], result := none } ∧
    (∀ sh', sh' ≠ sh → slotOf (registerRequest sh req t f s) sh' = slotOf s sh') ∧
    (registerRequest sh req t f s).order = s.order ++ [sh] ∧ (registerRequest sh req t f s).tx = s.tx ++ [f] ∧
    (registerRequest sh req t f s).fsr = s.fsr ∧ (registerRequest sh req t f s).notes = s.notes ∧
    (registerRequest sh req t f s).responses = s.responses ∧ (registerRequest sh req t f s).held = s.held ∧
    (registerRequest sh req t f s).issued = s.issued ∧ (registerRequest sh req t f s).free = s.free ∧
    (registerRequest sh req t f s).inputs = s.inputs := by
  cases sh <;> refine ⟨rfl, ?_, rfl, rfl, rfl, rfl, rfl, rfl, rfl, rfl, rfl⟩ <;> intro sh' h <;> cases sh' <;>
    first | rfl | exact absurd rfl h

/-- Buffering a partial: three fields of one slot; nothing else. -/
theorem bufferPartial_spec (sh : Shape) (c : Chunk) (s : State) :
    bufferPartial sh c s = setSlot s sh
      { slotOf s sh with partials := (slotOf s sh).partials ++ [c], idle := 0, st := .completing } := rfl

/-- Steps 5 to 8 of `EV.RX` end in one of five ways (R235). -/
theorem receiveChunk_cases (cap : Nat) (sh : Shape) (c : Chunk) (b : Byte) (s : State) :
    (checksum c.addr c.data ≠ b.toNat ∧ receiveChunk cap sh c b s = resolve sh (emptyResult .checksumMismatch) s) ∨
    (chunkInSpace c = false ∧ receiveChunk cap sh c b s = rxError .rangeError s) ∨
    (chunkInSpace c = true ∧ cap < (foldChunks ((slotOf s sh).partials ++ [c])).length ∧
      receiveChunk cap sh c b s = rxError .capacity s) ∨
    (chunkInSpace c = true ∧ (foldChunks ((slotOf s sh).partials ++ [c])).length ≤ cap ∧
      isComplete (slotOf s sh).req ((slotOf s sh).partials ++ [c]) = true ∧
      receiveChunk cap sh c b s = resolve sh (readResult (foldChunks ((slotOf s sh).partials ++ [c]))) s) ∨
    (chunkInSpace c = true ∧ (foldChunks ((slotOf s sh).partials ++ [c])).length ≤ cap ∧
      isComplete (slotOf s sh).req ((slotOf s sh).partials ++ [c]) = false ∧
      receiveChunk cap sh c b s = bufferPartial sh c s) := by
  unfold receiveChunk
  dsimp only
  split
  · exact .inl ⟨by assumption, rfl⟩
  · split
    · exact .inr (.inl ⟨by simpa using ‹(!chunkInSpace c) = true›, rfl⟩)
    · have hc : chunkInSpace c = true := by simpa using ‹¬(!chunkInSpace c) = true›
      split
      · exact .inr (.inr (.inl ⟨hc, by assumption, rfl⟩))
      · rename_i hcap
        split
        · exact .inr (.inr (.inr (.inl ⟨hc, by omega, by assumption, rfl⟩)))
        · rename_i hi
          exact .inr (.inr (.inr (.inr ⟨hc, by omega, by simpa using hi, rfl⟩)))

/-- A slot accepts a message by its kind alone, and only one slot can (R230). -/
theorem matchSlot_eq_some {d : DeviceMessage} {s : State} {sh : Shape} (h : matchSlot d s = some sh) :
    sh ∈ s.order ∧ acceptsMessage sh d = true := by
  refine ⟨List.mem_of_find?_eq_some h, ?_⟩
  simpa using List.find?_some h

/-- Steps 3 to 8 of `EV.RX` end in one of three ways (R235). -/
theorem deliver_cases (cap : Nat) (d : DeviceMessage) (s : State) :
    (∃ dev addr data b, d = .dataSet dev addr data b ∧ Shape.read ∈ s.order ∧
      deliver cap d s = receiveChunk cap .read ⟨addr, data⟩ b s) ∨
    (∃ r, d = .identityReply r ∧ Shape.ident ∈ s.order ∧ deliver cap d s = resolve .ident (identResult r) s) ∨
    deliver cap d s = notify (.rxmsg d) s := by
  unfold deliver
  split
  · rename_i dev addr data b sh hm
    obtain ⟨hmem, hacc⟩ := matchSlot_eq_some hm
    cases sh
    · exact .inl ⟨_, _, _, _, rfl, hmem, rfl⟩
    · simp [acceptsMessage] at hacc
  · rename_i r sh hm
    obtain ⟨hmem, hacc⟩ := matchSlot_eq_some hm
    cases sh
    · simp [acceptsMessage] at hacc
    · exact .inr (.inl ⟨_, rfl, hmem, rfl⟩)
  · exact .inr (.inr rfl)

/-- `EV.RX` ends in an error record or in the delivery of the narrowed message (R235, R239). -/
theorem receiveFrame_cases (cap : Nat) (f : Frame) (s : State) :
    (receiveFrame cap f s = rxError .decodeError s) ∨
    (∃ m, decodeFrame f = .ok m ∧ narrow m = none ∧ receiveFrame cap f s = rxError .unsupportedMessageError s) ∨
    (∃ m d, decodeFrame f = .ok m ∧ narrow m = some d ∧ receiveFrame cap f s = deliver cap d s) := by
  unfold receiveFrame receiveMessage
  split
  · exact .inl rfl
  · rename_i m hm
    cases hn : narrow m with
    | none => exact .inr (.inl ⟨m, hm, hn, by simp⟩)
    | some d => exact .inr (.inr ⟨m, d, hm, hn, by simp⟩)

/-- The body of `EV.TICK` for one slot: nothing, one more tick, or the end of the request (R244). -/
theorem tickSlot_cases (sh : Shape) (s : State) :
    ((isPending (slotOf s sh).st && (slotOf s sh).hasTo) = false ∧ tickSlot sh s = s) ∨
    ((isPending (slotOf s sh).st && (slotOf s sh).hasTo) = true ∧
      (idleNext (slotOf s sh).idle).toNat ≤ (slotOf s sh).timeout.toNat ∧
      tickSlot sh s = setSlot s sh { slotOf s sh with idle := idleNext (slotOf s sh).idle }) ∨
    ((isPending (slotOf s sh).st && (slotOf s sh).hasTo) = true ∧
      (slotOf s sh).timeout.toNat < (idleNext (slotOf s sh).idle).toNat ∧
      tickSlot sh s = expire sh (setSlot s sh { slotOf s sh with idle := idleNext (slotOf s sh).idle })) := by
  unfold tickSlot
  dsimp only
  split
  · rename_i h
    split
    · rename_i hlt
      exact .inr (.inr ⟨h, hlt, rfl⟩)
    · rename_i hlt
      exact .inr (.inl ⟨h, Nat.le_of_not_lt hlt, rfl⟩)
  · rename_i h
    exact .inl ⟨by simpa using h, rfl⟩

end Sys2Proof.Machine
end

