-- ==== Sys2Proof/Laws/PerInstr.lean ====
section
/-! SUPPORT. A family of facts about every instruction as syntax: the leading byte of its encoding (the op code of a command,
the status byte of a frame) is the one the opcode table matches the row by. -/

-- Every lemma below unfolds the same functions: elaborated one after the other, they do not wait for each other in threads.
set_option Elab.async false

namespace Sys2Proof.Laws.LeadingByte

/-- The byte the opcode table's `match` and `mask` apply to (R92). A tick has none. -/
def leadingByte : Event → Byte
  | .cmd c => c.op
  | .rx f => f.headD 0
  | .tick => 0

/-- `match` and `mask` of byte 0 in the row of each constructor; an event row has no match (R73, R92). -/
def tableMatch : Instr → Nat × Nat
  | .sbFromint _ _ => (0x10, 0xFF)
  | .sbToint _ _ => (0x11, 0xFF)
  | .sbTobytes _ _ => (0x12, 0xFF)
  | .sbFrombytes _ _ => (0x13, 0xFF)
  | .sbOffsetby _ _ _ _ => (0x14, 0xFF)
  | .sbCmp _ _ _ => (0x15, 0xFF)
  | .sbDiff _ _ _ => (0x16, 0xFF)
  | .dsAddi _ _ => (0x20, 0xFF)
  | .dsSubi _ _ => (0x21, 0xFF)
  | .rgContains _ _ _ => (0x22, 0xFF)
  | .rgCovered _ _ _ => (0x23, 0xFF)
  | .csCompute _ _ => (0x30, 0xFF)
  | .csVerify _ _ _ => (0x31, 0xFF)
  | .mcDecode _ => (0x40, 0xFF)
  | .mcEncode _ => (0x41, 0xFF)
  | .dxNarrow _ => (0x42, 0xFF)
  | .dxMkidreq _ => (0x43, 0xFF)
  | .dxMkrq1 _ _ _ => (0x44, 0xFF)
  | .dxMkdt1 _ _ _ => (0x45, 0xFF)
  | .rqSendu _ => (0x50, 0xFF)
  | .rqSendrRead _ _ _ _ => (0x51, 0xFF)
  | .rqSendrIdent _ _ => (0x52, 0xFF)
  | .rqGet _ => (0x53, 0xFF)
  | .rqCancel _ => (0x54, 0xFF)
  | .srRead _ => (0x60, 0xFF)
  | .evRx _ => (0, 0)
  | .evTick => (0, 0)
  | .noteOff _ _ _ => (0x80, 0xF0)
  | .noteOn _ _ _ => (0x90, 0xF0)
  | .polyKeyPressure _ _ _ => (0xA0, 0xF0)
  | .controlChange _ _ _ => (0xB0, 0xF0)
  | .channelMode _ _ _ => (0xB0, 0xF0)
  | .programChange _ _ => (0xC0, 0xF0)
  | .channelPressure _ _ => (0xD0, 0xF0)
  | .pitchBend _ _ => (0xE0, 0xF0)
  | .timeCode _ _ => (0xF1, 0xFF)
  | .songPositionPointer _ => (0xF2, 0xFF)
  | .songSelect _ => (0xF3, 0xFF)
  | .tuneRequest => (0xF6, 0xFF)
  | .clock => (0xF8, 0xFF)
  | .start => (0xFA, 0xFF)
  | .continueMsg => (0xFB, 0xFF)
  | .stop => (0xFC, 0xFF)
  | .activeSensing => (0xFE, 0xFF)
  | .reset => (0xFF, 0xFF)
  | .sysExUniversalRealtime _ _ => (0xF0, 0xFF)
  | .sysExUniversalNonRealtime _ _ => (0xF0, 0xFF)
  | .sysExManufacturer _ _ => (0xF0, 0xFF)
  | .identityRequest _ => (0xF0, 0xFF)
  | .identityReply _ _ _ _ _ => (0xF0, 0xFF)
  | .readRequest _ _ _ _ => (0xF0, 0xFF)
  | .dataSet _ _ _ _ => (0xF0, 0xFF)

/-- The leading byte of the encoding has the value the table matches, under its mask. -/
def Statement (i : Instr) : Prop :=
  (leadingByte (encode i)).toNat &&& (tableMatch i).2 = (tableMatch i).1

/-- A channel-voice status byte has its kind in the high nibble. -/
theorem statusByte_masked (c : BitVec 4) :
    (statusByte 0x8 c.toNat).toNat &&& 0xF0 = 0x80 ∧ (statusByte 0x9 c.toNat).toNat &&& 0xF0 = 0x90 ∧
    (statusByte 0xA c.toNat).toNat &&& 0xF0 = 0xA0 ∧ (statusByte 0xB c.toNat).toNat &&& 0xF0 = 0xB0 ∧
    (statusByte 0xC c.toNat).toNat &&& 0xF0 = 0xC0 ∧ (statusByte 0xD c.toNat).toNat &&& 0xF0 = 0xD0 ∧
    (statusByte 0xE c.toNat).toNat &&& 0xF0 = 0xE0 := by
  revert c; decide

theorem sbFromint (w : Width) (n : BitVec 32) : Statement (.sbFromint w n) := by
  simp [Statement, leadingByte, tableMatch, encode]
theorem sbToint (w : Width) (a : Digits) : Statement (.sbToint w a) := by
  simp [Statement, leadingByte, tableMatch, encode]
theorem sbTobytes (w : Width) (a : Digits) : Statement (.sbTobytes w a) := by
  simp [Statement, leadingByte, tableMatch, encode]
theorem sbFrombytes (w : Width) (buf : Frame) : Statement (.sbFrombytes w buf) := by
  simp [Statement, leadingByte, tableMatch, encode]
theorem sbOffsetby (w : Width) (a b : Digits) (k : BitVec 16) : Statement (.sbOffsetby w a b k) := by
  simp [Statement, leadingByte, tableMatch, encode]
theorem sbCmp (w : Width) (a b : Digits) : Statement (.sbCmp w a b) := by
  simp [Statement, leadingByte, tableMatch, encode]
theorem sbDiff (w : Width) (a b : Digits) : Statement (.sbDiff w a b) := by
  simp [Statement, leadingByte, tableMatch, encode]
theorem dsAddi (a : Digits) (n : BitVec 32) : Statement (.dsAddi a n) := by
  simp [Statement, leadingByte, tableMatch, encode]
theorem dsSubi (a : Digits) (n : BitVec 32) : Statement (.dsSubi a n) := by
  simp [Statement, leadingByte, tableMatch, encode]
theorem rgContains (a b x : Digits) : Statement (.rgContains a b x) := by
  simp [Statement, leadingByte, tableMatch, encode]
theorem rgCovered (a b : Digits) (map : List Nat) : Statement (.rgCovered a b map) := by
  simp [Statement, leadingByte, tableMatch, encode]
theorem csCompute (a : Digits) (buf : Frame) : Statement (.csCompute a buf) := by
  simp [Statement, leadingByte, tableMatch, encode]
theorem csVerify (a : Digits) (buf : Frame) (csb : Byte) : Statement (.csVerify a buf csb) := by
  simp [Statement, leadingByte, tableMatch, encode]
theorem mcDecode (buf : Frame) : Statement (.mcDecode buf) := by
  simp [Statement, leadingByte, tableMatch, encode]
theorem mcEncode (msg : MidiMessage) : Statement (.mcEncode msg) := by
  simp [Statement, leadingByte, tableMatch, encode]
theorem dxNarrow (msg : MidiMessage) : Statement (.dxNarrow msg) := by
  simp [Statement, leadingByte, tableMatch, encode]
theorem dxMkidreq (dev : Byte) : Statement (.dxMkidreq dev) := by
  simp [Statement, leadingByte, tableMatch, encode]
theorem dxMkrq1 (dev : Byte) (a b : Digits) : Statement (.dxMkrq1 dev a b) := by
  simp [Statement, leadingByte, tableMatch, encode]
theorem dxMkdt1 (dev : Byte) (a : Digits) (buf : Frame) : Statement (.dxMkdt1 dev a buf) := by
  simp [Statement, leadingByte, tableMatch, encode]
theorem rqSendu (msg : MidiMessage) : Statement (.rqSendu msg) := by
  simp [Statement, leadingByte, tableMatch, encode]
theorem rqSendrRead (dev : Byte) (a b : Digits) (timeout : Timeout) : Statement (.rqSendrRead dev a b timeout) := by
  simp [Statement, leadingByte, tableMatch, encode]
theorem rqSendrIdent (dev : Byte) (timeout : Timeout) : Statement (.rqSendrIdent dev timeout) := by
  simp [Statement, leadingByte, tableMatch, encode]
theorem rqGet (h : BitVec 1) : Statement (.rqGet h) := by
  simp [Statement, leadingByte, tableMatch, encode]
theorem rqCancel (h : BitVec 1) : Statement (.rqCancel h) := by
  simp [Statement, leadingByte, tableMatch, encode]
theorem srRead (srn : BitVec 3) : Statement (.srRead srn) := by
  simp [Statement, leadingByte, tableMatch, encode]
theorem evRx (frame : Frame) : Statement (.evRx frame) :=
  Nat.and_zero _
theorem evTick : Statement .evTick := by
  simp [Statement, leadingByte, tableMatch, encode]
theorem noteOff (channel : BitVec 4) (key velocity : BitVec 7) : Statement (.noteOff channel key velocity) :=
  (statusByte_masked channel).1
theorem noteOn (channel : BitVec 4) (key velocity : BitVec 7) : Statement (.noteOn channel key velocity) :=
  (statusByte_masked channel).2.1
theorem polyKeyPressure (channel : BitVec 4) (key pressure : BitVec 7) : Statement (.polyKeyPressure channel key pressure) :=
  (statusByte_masked channel).2.2.1
theorem controlChange (channel : BitVec 4) (controller value : BitVec 7) : Statement (.controlChange channel controller value) :=
  (statusByte_masked channel).2.2.2.1
theorem channelMode (channel : BitVec 4) (kind : ChannelModeKind) (value : BitVec 7) : Statement (.channelMode channel kind value) :=
  (statusByte_masked channel).2.2.2.1
theorem programChange (channel : BitVec 4) (program : BitVec 7) : Statement (.programChange channel program) :=
  (statusByte_masked channel).2.2.2.2.1
theorem channelPressure (channel : BitVec 4) (pressure : BitVec 7) : Statement (.channelPressure channel pressure) :=
  (statusByte_masked channel).2.2.2.2.2.1
theorem pitchBend (channel : BitVec 4) (bend : Int) : Statement (.pitchBend channel bend) :=
  (statusByte_masked channel).2.2.2.2.2.2
theorem timeCode (msgType : BitVec 3) (value : BitVec 4) : Statement (.timeCode msgType value) := by
  simp [Statement, leadingByte, tableMatch, encode, encodeMessage]
theorem songPositionPointer (position : BitVec 14) : Statement (.songPositionPointer position) := by
  simp [Statement, leadingByte, tableMatch, encode, encodeMessage]
theorem songSelect (song : BitVec 7) : Statement (.songSelect song) := by
  simp [Statement, leadingByte, tableMatch, encode, encodeMessage]
theorem tuneRequest : Statement .tuneRequest := by
  simp [Statement, leadingByte, tableMatch, encode, encodeMessage]
theorem clock : Statement .clock := by
  simp [Statement, leadingByte, tableMatch, encode, encodeMessage]
theorem start : Statement .start := by
  simp [Statement, leadingByte, tableMatch, encode, encodeMessage]
theorem continueMsg : Statement .continueMsg := by
  simp [Statement, leadingByte, tableMatch, encode, encodeMessage]
theorem stop : Statement .stop := by
  simp [Statement, leadingByte, tableMatch, encode, encodeMessage]
theorem activeSensing : Statement .activeSensing := by
  simp [Statement, leadingByte, tableMatch, encode, encodeMessage]
theorem reset : Statement .reset := by
  simp [Statement, leadingByte, tableMatch, encode, encodeMessage]
theorem sysExUniversalRealtime (deviceId : Byte) (payload : List Byte) : Statement (.sysExUniversalRealtime deviceId payload) := by
  simp [Statement, leadingByte, tableMatch, encode, encodeMessage]
theorem sysExUniversalNonRealtime (deviceId : Byte) (payload : List Byte) : Statement (.sysExUniversalNonRealtime deviceId payload) := by
  simp [Statement, leadingByte, tableMatch, encode, encodeMessage]
theorem sysExManufacturer (id payload : List Byte) : Statement (.sysExManufacturer id payload) := by
  simp [Statement, leadingByte, tableMatch, encode, encodeMessage]
theorem identityRequest (deviceId : Byte) : Statement (.identityRequest deviceId) := by
  simp [Statement, leadingByte, tableMatch, encode, encodeMessage, identityRequestMessage]
theorem identityReply (deviceId manufacturer : Byte) (family number rev : List Byte) : Statement (.identityReply deviceId manufacturer family number rev) := by
  simp [Statement, leadingByte, tableMatch, encode, encodeMessage, identityReplyMessage]
theorem readRequest (deviceId : Byte) (address size : Digits) (checksum : Byte) : Statement (.readRequest deviceId address size checksum) := by
  simp [Statement, leadingByte, tableMatch, encode, encodeMessage, readRequestMessage]
theorem dataSet (deviceId : Byte) (address : Digits) (data : List Byte) (checksum : Byte) : Statement (.dataSet deviceId address data checksum) := by
  simp [Statement, leadingByte, tableMatch, encode, encodeMessage, dataSetMessage]

end Sys2Proof.Laws.LeadingByte
end

