-- ==== Sys2Proof/Tests/Slice0.lean ====
section
/-! SUPPORT. The model's own tests: ill-formed terms that WellFormed refuses, a word of every row decoded, single steps
checked against the vectors of 95_test_vectors.md (V<n>) and the worked examples of the rules (R<n>), and a state for the
hypotheses of each statement. -/

set_option Elab.async false
set_option maxRecDepth 4000

namespace Sys2Proof.Tests

open Sys2Proof.Machine

/-! ### Ill-formed terms -/

theorem test_illformed_five_digit_operand : Instr.wellFormed (.sbToint .w28 [0, 0, 0, 0, 0]) = false := by decide
theorem test_illformed_five_digit_addend : Instr.wellFormed (.sbOffsetby .w28 [0, 0, 0, 0] [0, 0, 0, 0, 0] 1) = false := by decide
theorem test_illformed_key_outside_space : Instr.wellFormed (.rgCovered [0x00, 0x00, 0x00, 0x04] [0x00, 0x00, 0x00, 0x04] [268435456]) = false := by decide
theorem test_illformed_good_frame_as_bare_event : Instr.wellFormed (.evRx [0x90, 0x3C, 0x64]) = false := by decide
theorem test_illformed_controller_120 : Instr.wellFormed (.controlChange 0 120 0) = false := by decide
theorem test_illformed_bend_above : Instr.wellFormed (.pitchBend 0 8192) = false := by decide
theorem test_illformed_bend_below : Instr.wellFormed (.pitchBend 0 (-8193)) = false := by decide
theorem test_illformed_realtime_device_id : Instr.wellFormed (.sysExUniversalRealtime 0x80 []) = false := by decide
theorem test_illformed_realtime_payload : Instr.wellFormed (.sysExUniversalRealtime 0x10 [0x80]) = false := by decide
theorem test_illformed_nonrealtime_device_id : Instr.wellFormed (.sysExUniversalNonRealtime 0x80 []) = false := by decide
theorem test_illformed_nonrealtime_payload : Instr.wellFormed (.sysExUniversalNonRealtime 0x10 [0xF7]) = false := by decide
theorem test_illformed_identity_request_as_sysex : Instr.wellFormed (.sysExUniversalNonRealtime 0x10 [0x06, 0x01]) = false := by decide
theorem test_illformed_identity_reply_as_sysex : Instr.wellFormed (.sysExUniversalNonRealtime 0x10 [6, 2, 0x41, 0, 0, 0, 0, 0, 0, 0, 0]) = false := by decide
theorem test_illformed_id_of_universal : Instr.wellFormed (.sysExManufacturer [0x7E] []) = false := by decide
theorem test_illformed_id_of_two_bytes : Instr.wellFormed (.sysExManufacturer [0x00, 0x20] []) = false := by decide
theorem test_illformed_id_of_three_not_zero : Instr.wellFormed (.sysExManufacturer [0x01, 0x20, 0x33] []) = false := by decide
theorem test_illformed_manufacturer_payload : Instr.wellFormed (.sysExManufacturer [0x43] [0x80]) = false := by decide
theorem test_illformed_data_set_as_sysex : Instr.wellFormed (.sysExManufacturer [0x41] [0x10, 0, 0, 0x64, 0x12, 1, 2, 3, 4, 0]) = false := by decide
theorem test_illformed_identity_request_device_id : Instr.wellFormed (.identityRequest 0x80) = false := by decide
theorem test_illformed_identity_reply_manufacturer : Instr.wellFormed (.identityReply 0x10 0x80 [0, 0] [0, 0] [0, 0, 0, 0]) = false := by decide
theorem test_illformed_identity_reply_family : Instr.wellFormed (.identityReply 0x10 0x41 [0] [0, 0] [0, 0, 0, 0]) = false := by decide
theorem test_illformed_identity_reply_number : Instr.wellFormed (.identityReply 0x10 0x41 [0, 0] [0, 0x80] [0, 0, 0, 0]) = false := by decide
theorem test_illformed_identity_reply_revision : Instr.wellFormed (.identityReply 0x10 0x41 [0, 0] [0, 0] [0, 0, 0]) = false := by decide
theorem test_illformed_read_request_address : Instr.wellFormed (.readRequest 0x10 [0, 0, 0] [0, 0, 0, 4] 0) = false := by decide
theorem test_illformed_read_request_size : Instr.wellFormed (.readRequest 0x10 [0, 0, 0, 0] [0, 0, 0, 0x80] 0) = false := by decide
theorem test_illformed_read_request_checksum : Instr.wellFormed (.readRequest 0x10 [0, 0, 0, 0] [0, 0, 0, 4] 0x80) = false := by decide
theorem test_illformed_data_set_address : Instr.wellFormed (.dataSet 0x10 [0, 0, 0, 0x80] [] 0) = false := by decide
theorem test_illformed_data_set_data : Instr.wellFormed (.dataSet 0x10 [0, 0, 0, 0] [0x80] 0) = false := by decide
theorem test_illformed_data_set_checksum : Instr.wellFormed (.dataSet 0x10 [0, 0, 0, 0] [] 0x80) = false := by decide

/-- A frame that cannot stand on the RX port, since it is longer than `FRAME_MAX`. -/
theorem test_illformed_long_frame :
    Instr.wellFormed (.evRx (List.replicate (Config.frameMax + 1) 0)) = false := by
  simp [Instr.wellFormed, fitsPort]

/-- A buffer that cannot stand in `BUF`. -/
theorem test_illformed_long_buf :
    Instr.wellFormed (.mcDecode (List.replicate (Config.frameMax + 1) 0)) = false := by
  simp [Instr.wellFormed, fitsPort]

/-! ### Every row decodes -/

theorem test_decode_sbFromint :
    decodeEvent (.cmd ⟨0x10, { w := some 2, n := some 1000000 }⟩) = .ok (.sbFromint .w28 1000000) := by decide
theorem test_decode_sbToint :
    decodeEvent (.cmd ⟨0x11, { w := some 1, a := some [1, 2] }⟩) = .ok (.sbToint .w14 [1, 2]) := by decide
theorem test_decode_sbTobytes :
    decodeEvent (.cmd ⟨0x12, { w := some 0, a := some [1] }⟩) = .ok (.sbTobytes .w7 [1]) := by decide
theorem test_decode_sbFrombytes :
    decodeEvent (.cmd ⟨0x13, { w := some 1, buf := some [0x7E, 0x7F] }⟩) = .ok (.sbFrombytes .w14 [0x7E, 0x7F]) := by decide
theorem test_decode_sbOffsetby :
    decodeEvent (.cmd ⟨0x14, { w := some 2, a := some [0, 0, 0, 0x7F], b := some [0, 0, 0, 1], k := some 3 }⟩) = .ok (.sbOffsetby .w28 [0, 0, 0, 0x7F] [0, 0, 0, 1] 3) := by decide
theorem test_decode_sbCmp :
    decodeEvent (.cmd ⟨0x15, { w := some 0, a := some [1], b := some [2] }⟩) = .ok (.sbCmp .w7 [1] [2]) := by decide
theorem test_decode_sbDiff :
    decodeEvent (.cmd ⟨0x16, { w := some 0, a := some [1], b := some [2] }⟩) = .ok (.sbDiff .w7 [1] [2]) := by decide
theorem test_decode_dsAddi :
    decodeEvent (.cmd ⟨0x20, { a := some [0, 0, 0, 1], n := some 300 }⟩) = .ok (.dsAddi [0, 0, 0, 1] 300) := by decide
theorem test_decode_dsSubi :
    decodeEvent (.cmd ⟨0x21, { a := some [0, 0, 0, 1], n := some 300 }⟩) = .ok (.dsSubi [0, 0, 0, 1] 300) := by decide
theorem test_decode_rgContains :
    decodeEvent (.cmd ⟨0x22, { a := some [0, 0, 0, 1], b := some [0, 0, 0, 2], x := some [0, 0, 0, 3] }⟩) = .ok (.rgContains [0, 0, 0, 1] [0, 0, 0, 2] [0, 0, 0, 3]) := by decide
theorem test_decode_rgCovered :
    decodeEvent (.cmd ⟨0x23, { a := some [0, 0, 0, 1], b := some [0, 0, 0, 2], map := some [1, 2] }⟩) = .ok (.rgCovered [0, 0, 0, 1] [0, 0, 0, 2] [1, 2]) := by decide
theorem test_decode_csCompute :
    decodeEvent (.cmd ⟨0x30, { a := some [0, 0, 0, 1], buf := some [2] }⟩) = .ok (.csCompute [0, 0, 0, 1] [2]) := by decide
theorem test_decode_csVerify :
    decodeEvent (.cmd ⟨0x31, { a := some [0, 0, 0, 1], buf := some [2], csb := some 0x7D }⟩) = .ok (.csVerify [0, 0, 0, 1] [2] 0x7D) := by decide
theorem test_decode_mcDecode :
    decodeEvent (.cmd ⟨0x40, { buf := some [0x90, 0x3C, 0x64] }⟩) = .ok (.mcDecode [0x90, 0x3C, 0x64]) := by decide
theorem test_decode_mcEncode :
    decodeEvent (.cmd ⟨0x41, { msg := some (.noteOn 0 60 100) }⟩) = .ok (.mcEncode (.noteOn 0 60 100)) := by decide
theorem test_decode_dxNarrow :
    decodeEvent (.cmd ⟨0x42, { msg := some (.noteOn 0 60 100) }⟩) = .ok (.dxNarrow (.noteOn 0 60 100)) := by decide
theorem test_decode_dxMkidreq :
    decodeEvent (.cmd ⟨0x43, { dev := some 0x10 }⟩) = .ok (.dxMkidreq 0x10) := by decide
theorem test_decode_dxMkrq1 :
    decodeEvent (.cmd ⟨0x44, { dev := some 0x10, a := some [1, 2, 3, 4], b := some [0, 0, 0, 4] }⟩) = .ok (.dxMkrq1 0x10 [1, 2, 3, 4] [0, 0, 0, 4]) := by decide
theorem test_decode_dxMkdt1 :
    decodeEvent (.cmd ⟨0x45, { dev := some 0x10, a := some [1, 2, 3, 4], buf := some [5] }⟩) = .ok (.dxMkdt1 0x10 [1, 2, 3, 4] [5]) := by decide
theorem test_decode_rqSendu :
    decodeEvent (.cmd ⟨0x50, { msg := some .clock }⟩) = .ok (.rqSendu .clock) := by decide
theorem test_decode_rqSendrRead :
    decodeEvent (.cmd ⟨0x51, { dev := some 0x10, a := some [1, 2, 3, 4], b := some [0, 0, 0, 4], timeout := some ⟨true, 100⟩ }⟩) = .ok (.rqSendrRead 0x10 [1, 2, 3, 4] [0, 0, 0, 4] ⟨true, 100⟩) := by decide
theorem test_decode_rqSendrIdent :
    decodeEvent (.cmd ⟨0x52, { dev := some 0x10, timeout := some ⟨false, 0⟩ }⟩) = .ok (.rqSendrIdent 0x10 ⟨false, 0⟩) := by decide
theorem test_decode_rqGet :
    decodeEvent (.cmd ⟨0x53, { h := some 1 }⟩) = .ok (.rqGet 1) := by decide
theorem test_decode_rqCancel :
    decodeEvent (.cmd ⟨0x54, { h := some 0 }⟩) = .ok (.rqCancel 0) := by decide
theorem test_decode_srRead :
    decodeEvent (.cmd ⟨0x60, { srn := some 5 }⟩) = .ok (.srRead 5) := by decide
theorem test_decode_evRx :
    decodeEvent (.rx [0xF4]) = .ok (.evRx [0xF4]) := by decide
theorem test_decode_noteOff :
    decodeEvent (.rx [0x85, 0x40, 0x00]) = .ok (.noteOff 5 64 0) := by decide
theorem test_decode_noteOn :
    decodeEvent (.rx [0x90, 0x3C, 0x64]) = .ok (.noteOn 0 60 100) := by decide
theorem test_decode_polyKeyPressure :
    decodeEvent (.rx [0xA1, 0x3C, 0x7F]) = .ok (.polyKeyPressure 1 60 127) := by decide
theorem test_decode_controlChange :
    decodeEvent (.rx [0xB0, 0x77, 0x7F]) = .ok (.controlChange 0 119 127) := by decide
theorem test_decode_channelMode :
    decodeEvent (.rx [0xB2, 0x7B, 0x00]) = .ok (.channelMode 2 .allNotesOff 0) := by decide
theorem test_decode_programChange :
    decodeEvent (.rx [0xC3, 0x05]) = .ok (.programChange 3 5) := by decide
theorem test_decode_channelPressure :
    decodeEvent (.rx [0xDF, 0x7F]) = .ok (.channelPressure 15 127) := by decide
theorem test_decode_pitchBend :
    decodeEvent (.rx [0xE0, 0x7F, 0x3F]) = .ok (.pitchBend 0 (-1)) := by decide
theorem test_decode_timeCode :
    decodeEvent (.rx [0xF1, 0x23]) = .ok (.timeCode 2 3) := by decide
theorem test_decode_songPositionPointer :
    decodeEvent (.rx [0xF2, 0x68, 0x07]) = .ok (.songPositionPointer 1000) := by decide
theorem test_decode_songSelect :
    decodeEvent (.rx [0xF3, 0x05]) = .ok (.songSelect 5) := by decide
theorem test_decode_tuneRequest :
    decodeEvent (.rx [0xF6]) = .ok .tuneRequest := by decide
theorem test_decode_clock :
    decodeEvent (.rx [0xF8]) = .ok .clock := by decide
theorem test_decode_start :
    decodeEvent (.rx [0xFA]) = .ok .start := by decide
theorem test_decode_continueMsg :
    decodeEvent (.rx [0xFB]) = .ok .continueMsg := by decide
theorem test_decode_stop :
    decodeEvent (.rx [0xFC]) = .ok .stop := by decide
theorem test_decode_activeSensing :
    decodeEvent (.rx [0xFE]) = .ok .activeSensing := by decide
theorem test_decode_reset :
    decodeEvent (.rx [0xFF]) = .ok .reset := by decide
theorem test_decode_sysExUniversalRealtime :
    decodeEvent (.rx [0xF0, 0x7F, 0x10, 0x04, 0x01, 0x00, 0x40, 0xF7]) = .ok (.sysExUniversalRealtime 0x10 [4, 1, 0, 0x40]) := by decide
theorem test_decode_sysExUniversalNonRealtime :
    decodeEvent (.rx [0xF0, 0x7E, 0x10, 0xF7]) = .ok (.sysExUniversalNonRealtime 0x10 []) := by decide
theorem test_decode_sysExManufacturer :
    decodeEvent (.rx [0xF0, 0x00, 0x20, 0x33, 0x01, 0x02, 0xF7]) = .ok (.sysExManufacturer [0x00, 0x20, 0x33] [1, 2]) := by decide
theorem test_decode_identityRequest :
    decodeEvent (.rx [0xF0, 0x7E, 0x10, 0x06, 0x01, 0xF7]) = .ok (.identityRequest 0x10) := by decide
theorem test_decode_identityReply :
    decodeEvent (.rx [0xF0, 0x7E, 0x10, 0x06, 0x02, 0x41, 0x64, 0x02, 0x01, 0x03, 0x00, 0x03, 0x00, 0x04, 0xF7]) = .ok (.identityReply 0x10 0x41 [0x64, 2] [1, 3] [0, 3, 0, 4]) := by decide
theorem test_decode_readRequest :
    decodeEvent (.rx [0xF0, 0x41, 0x10, 0x00, 0x00, 0x64, 0x11, 0x01, 0x02, 0x7F, 0x7E, 0x00, 0x00, 0x00, 0x04, 0x7C, 0xF7]) = .ok (.readRequest 0x10 [1, 2, 0x7F, 0x7E] [0, 0, 0, 4] 0x7C) := by decide
theorem test_decode_dataSet :
    decodeEvent (.rx [0xF0, 0x41, 0x10, 0x00, 0x00, 0x64, 0x12, 0x01, 0x02, 0x7F, 0x7E, 0x11, 0x22, 0x33, 0x44, 0x56, 0xF7]) = .ok (.dataSet 0x10 [1, 2, 0x7F, 0x7E] [0x11, 0x22, 0x33, 0x44] 0x56) := by decide
theorem test_decode_evTick : decodeEvent .tick = .ok .evTick := by decide

theorem test_decode_reserved_op : decodeEvent (.cmd ⟨0x17, {}⟩) = .error (.reservedOp 0x17) := by decide
theorem test_decode_reserved_width :
    decodeEvent (.cmd ⟨0x10, { w := some 3, n := some 0 }⟩) = .error .reservedWidth := by decide
theorem test_decode_missing_slot :
    decodeEvent (.cmd ⟨0x10, { w := some 2 }⟩) = .error (.missingOperand 0x10) := by decide
theorem test_table_word_op : decodeTableWord 8 0x53 = some (.rqGet 0) := by decide
theorem test_table_word_frame : decodeTableWord 24 0x643C90 = some (.noteOn 0 60 100) := by decide
theorem test_table_word_padded : decodeTableWord 8 0xF2 = some (.songPositionPointer 0) := by decide
theorem test_table_word_sysex : decodeTableWord 16 0x7EF0 = some (.sysExUniversalNonRealtime 0 []) := by decide

/-! ### Single steps -/

/-- The last response of an answer. -/
def lastResponse (a : Answer) : Option Response :=
  match a with
  | .next s => s.responses.getLast?
  | _ => none

/-- The result slots of the last response, when it reports no fault. -/
def slots (a : Answer) : Option ResultSlots :=
  match lastResponse a with
  | some r => if r.st = 0 then some r.results else none
  | none => none

/-- `ST` of the last response. -/
def status (a : Answer) : Option (BitVec 4) := (lastResponse a).map (·.st)

/-- A field of the next state. -/
def after {α : Type} (a : Answer) (f : State → α) : Option α :=
  match a with
  | .next s => some (f s)
  | _ => none

/-- The state with a read of `01 02 7F 7E`, 4 bytes, pending with a timeout of 100 ticks (V182). -/
def readPending : State :=
  { State.reset with
    slot0 := { st := .sent, req := ⟨0x10, [0x01, 0x02, 0x7F, 0x7E], [0, 0, 0, 4]⟩, hasTo := true, timeout := 100,
               idle := 0, partials := [], result := none }
    order := [.read] }

/-- The state with an identity request pending and no timeout (V186). -/
def identPending : State :=
  { State.reset with
    slot1 := { Slot.reset with st := .sent, req := ⟨0x10, [0, 0, 0, 0], [0, 0, 0, 0]⟩ }
    order := [.ident] }

-- V9, V8, V15, V16, V18, V19, V20
theorem test_fromint :
    slots (exec (.sbFromint .w28 1000000) State.reset) = some { r := some [0x00, 0x3D, 0x04, 0x40] } := by decide
theorem test_fromint_range : status (exec (.sbFromint .w28 268435456) State.reset) = some 1 := by decide
theorem test_toint :
    slots (exec (.sbToint .w28 [0x12, 0x34, 0x56, 0x78]) State.reset) = some { rn := some 38611832 } := by decide
theorem test_toint_range : status (exec (.sbToint .w28 [0, 0, 0, 0x80]) State.reset) = some 1 := by decide
theorem test_tobytes :
    slots (exec (.sbTobytes .w28 [0x01, 0x02, 0x7F, 0x7E]) State.reset) = some { rbuf := some [0x01, 0x02, 0x7F, 0x7E] } := by decide
theorem test_frombytes :
    slots (exec (.sbFrombytes .w14 [0x7E, 0x7F]) State.reset) = some { r := some [0x7E, 0x7F] } := by decide
theorem test_frombytes_range : status (exec (.sbFrombytes .w14 [0x7E, 0xFF]) State.reset) = some 1 := by decide
-- V25, V24, V39, V38, V41, V43
theorem test_offsetby :
    slots (exec (.sbOffsetby .w28 [0x12, 0x34, 0x56, 0x78] [0x01, 0x4C, 0x2A, 0x09] 1) State.reset) = some { r := some [0x14, 0x01, 0x01, 0x01] } := by decide
theorem test_offsetby_range : status (exec (.sbOffsetby .w28 [0x7F, 0x7F, 0x7F, 0x7F] [0, 0, 0, 1] 1) State.reset) = some 1 := by decide
theorem test_cmp_greater :
    slots (exec (.sbCmp .w28 [1, 3, 0, 0] [1, 2, 0x7F, 0x7F]) State.reset) = some { rc := some 2 } := by decide
theorem test_cmp_less :
    slots (exec (.sbCmp .w28 [1, 2, 0x7F, 0x7E] [1, 3, 0, 0]) State.reset) = some { rc := some 1 } := by decide
theorem test_diff :
    slots (exec (.sbDiff .w28 [1, 3, 0, 2] [1, 2, 0x7F, 0x7E]) State.reset) = some { r := some [0, 0, 0, 4] } := by decide
theorem test_diff_greatest :
    slots (exec (.sbDiff .w28 [0, 0, 0, 0] [0x7F, 0x7F, 0x7F, 0x7F]) State.reset) = some { r := some [0x7F, 0x7F, 0x7F, 0x7F] } := by decide
-- V51, V53, V54, V56, V59, V60, V64, V65
theorem test_addi :
    slots (exec (.dsAddi [0, 0, 0, 0x10] 300) State.reset) = some { r := some [0, 0, 2, 0x3C] } := by decide
theorem test_addi_range : status (exec (.dsAddi [0, 0, 0, 0] 4294967295) State.reset) = some 1 := by decide
theorem test_subi :
    slots (exec (.dsSubi [0, 0, 1, 0] 1) State.reset) = some { r := some [0, 0, 0, 0x7F] } := by decide
theorem test_subi_range : status (exec (.dsSubi [0, 0, 0, 4] 5) State.reset) = some 1 := by decide
theorem test_contains_last :
    slots (exec (.rgContains [0x01, 0x02, 0x7F, 0x7E] [0x00, 0x00, 0x00, 0x04] [1, 3, 0, 1]) State.reset) = some { rb := some true } := by decide +kernel
theorem test_contains_end :
    slots (exec (.rgContains [0x01, 0x02, 0x7F, 0x7E] [0x00, 0x00, 0x00, 0x04] [1, 3, 0, 2]) State.reset) = some { rb := some false } := by decide +kernel
theorem test_covered :
    slots (exec (.rgCovered [0x01, 0x02, 0x7F, 0x7E] [0x00, 0x00, 0x00, 0x04] [2146305, 2146302, 2146304, 2146303]) State.reset) = some { rb := some true } := by decide +kernel
theorem test_covered_not :
    slots (exec (.rgCovered [0x01, 0x02, 0x7F, 0x7E] [0x00, 0x00, 0x00, 0x04] [2146302, 2146303]) State.reset) = some { rb := some false } := by decide +kernel
-- V74, V72, V81, V82
theorem test_compute :
    slots (exec (.csCompute [0x7F, 0x7F, 0x7F, 0x7F] [0x7F]) State.reset) = some { rcs := some 5 } := by decide
theorem test_compute_zero :
    slots (exec (.csCompute [0x40, 0x40, 0, 0] []) State.reset) = some { rcs := some 0 } := by decide
theorem test_verify :
    slots (exec (.csVerify [0x01, 0x02, 0x7F, 0x7E] [0x11, 0x22, 0x33, 0x44] 0x56) State.reset) = some { rb := some true } := by decide
theorem test_verify_mismatch : status (exec (.csVerify [0x01, 0x02, 0x7F, 0x7E] [0x11, 0x22, 0x33, 0x44] 0x57) State.reset) = some 3 := by decide
-- V104, V123, V98, V134, V153, V159, V164, V166, V168, V171
theorem test_mc_decode :
    slots (exec (.mcDecode [0xE0, 0x7F, 0x3F]) State.reset) = some { rmsg := some (.midi (.pitchBend 0 (-1))) } := by decide
theorem test_mc_decode_excess : status (exec (.mcDecode [0x90, 0x3C, 0x64, 0x00]) State.reset) = some 2 := by decide
theorem test_mc_encode :
    slots (exec (.mcEncode (.channelMode 15 .polyModeOn 5)) State.reset) = some { rbuf := some [0xBF, 0x7F, 0x05] } := by decide
theorem test_mc_encode_range : status (exec (.mcEncode (.controlChange 0 120 0)) State.reset) = some 1 := by decide
theorem test_narrow :
    slots (exec (.dxNarrow (.sysExUniversalNonRealtime 0x10 [6, 2, 0x41, 0x64, 2, 1, 2, 0, 3, 0, 4])) State.reset) =
      some { rmsg := some (.device (.identityReply
        ⟨0x10, 0x41, [0x64, 2], 0x6402, [1, 2], 0x0102, [0, 3, 0, 4], 0x00030004⟩)) } := by decide
theorem test_narrow_unsupported : status (exec (.dxNarrow (.sysExManufacturer [0x41] [0x10, 0, 0, 0x64, 0x13, 1, 2, 0x7F, 0x7E, 0])) State.reset) = some 4 := by decide
theorem test_mkidreq :
    (slots (exec (.dxMkidreq 0x10) State.reset)).map (·.rbuf) = some (some [0xF0, 0x7E, 0x10, 0x06, 0x01, 0xF7]) := by
  decide
theorem test_mkrq1 :
    (slots (exec (.dxMkrq1 0x10 [0x01, 0x02, 0x7F, 0x7E] [0, 0, 0, 4]) State.reset)).map (·.rbuf) =
      some (some [0xF0, 0x41, 0x10, 0x00, 0x00, 0x64, 0x11, 0x01, 0x02, 0x7F, 0x7E, 0x00, 0x00, 0x00, 0x04, 0x7C,
        0xF7]) := by decide
theorem test_mkdt1 :
    (slots (exec (.dxMkdt1 0x10 [0x18, 0, 0x20, 0] [0x40]) State.reset)).map (·.rbuf) =
      some (some [0xF0, 0x41, 0x10, 0x00, 0x00, 0x64, 0x12, 0x18, 0x00, 0x20, 0x00, 0x40, 0x08, 0xF7]) := by decide
theorem test_mkdt1_range : status (exec (.dxMkdt1 0x10 [0x01, 0x02, 0x7F, 0x7E] [0x11, 0x80]) State.reset) = some 1 := by decide
-- V180, V181, V182, V183, V186, V187, V188, P6 step 6
theorem test_sendu :
    after (exec (.rqSendu (.noteOn 0 60 100)) State.reset) (·.tx) = some [[0x90, 0x3C, 0x64]] := by decide
theorem test_sendu_range : after (exec (.rqSendu (.noteOn 0 60 128)) State.reset) (·.tx) = some [] := by decide
theorem test_sendr_read :
    after (exec (.rqSendrRead 0x10 [0x01, 0x02, 0x7F, 0x7E] [0, 0, 0, 4] ⟨true, 100⟩) State.reset)
      (fun s => (slotView s.slot0, pendView s, s.slot0.idle, s.tx)) =
      some (0x9, 1, 0, [[0xF0, 0x41, 0x10, 0x00, 0x00, 0x64, 0x11, 0x01, 0x02, 0x7F, 0x7E, 0x00, 0x00, 0x00, 0x04, 0x7C,
        0xF7]]) := by decide
theorem test_sendr_read_busy :
    after (exec (.rqSendrRead 0x10 [0x1A, 0, 0, 0] [0, 0, 0, 2] ⟨true, 50⟩) readPending)
      (fun s => (s.slot0, s.tx, s.fsr)) = some (readPending.slot0, [], 0x080) := by decide
theorem test_sendr_ident :
    after (exec (.rqSendrIdent 0x10 ⟨false, 0⟩) State.reset) (fun s => (slotView s.slot1, pendView s, s.tx)) =
      some (0x1, 2, [[0xF0, 0x7E, 0x10, 0x06, 0x01, 0xF7]]) := by decide
theorem test_get_idle : status (exec (.rqGet 0) State.reset) = some 8 := by decide
theorem test_get_holds : after (exec (.rqGet 0) readPending) (fun s => (s.held, s.responses)) =
    some ([⟨0, .read⟩], []) := by decide
theorem test_cancel_idle : status (exec (.rqCancel 1) State.reset) = some 8 := by decide
theorem test_cancel :
    after (exec (.rqCancel 0) readPending) (fun s => (s.slot0.st, s.notes, s.fsr)) =
      some (.cancelled, [.resolve .read .cancelledError], 0x040) := by decide
-- V189, R248
theorem test_sr_read : slots (exec (.srRead 1) readPending) = some { rsr := some 1 } := by decide
theorem test_sr_reserved : status (exec (.srRead 6) State.reset) = some 9 := by decide
-- V192, V193, V191, P1 step 2, P2 step 2, P5 step 3, V195, V194
theorem test_rx_truncated :
    after (exec (.evRx [0x90, 0x3C]) State.reset) (fun s => (s.notes, s.fsr)) =
      some ([.rxerr .decodeError], 0x004) := by decide
theorem test_rx_unsupported :
    after (exec (.sysExUniversalRealtime 0x10 [4, 1, 0, 0x40]) State.reset) (fun s => (s.notes, s.fsr)) =
      some ([.rxerr .unsupportedMessageError], 0x010) := by decide
theorem test_rx_note :
    after (exec (.noteOn 0 60 100) readPending) (fun s => (s.notes, s.slot0)) =
      some ([.rxmsg (.passthrough (.noteOn 0 60 100))], readPending.slot0) := by decide
theorem test_rx_completes (cap : Nat) (h : 4 ≤ cap) :
    (receiveChunk cap .read ⟨[0x01, 0x02, 0x7F, 0x7E], [0x11, 0x22, 0x33, 0x44]⟩ 0x56 readPending).slot0.result =
      some (readResult [(2146302, 0x11), (2146303, 0x22), (2146304, 0x33), (2146305, 0x44)]) := by
  have h1 : checksum [0x01, 0x02, 0x7F, 0x7E] [0x11, 0x22, 0x33, 0x44] = (0x56 : Byte).toNat := by decide
  have h2 : chunkInSpace ⟨[0x01, 0x02, 0x7F, 0x7E], [0x11, 0x22, 0x33, 0x44]⟩ = true := by decide
  have h3 : foldChunks ((slotOf readPending .read).partials ++ [⟨[0x01, 0x02, 0x7F, 0x7E], [0x11, 0x22, 0x33, 0x44]⟩])
      = [(2146302, 0x11), (2146303, 0x22), (2146304, 0x33), (2146305, 0x44)] := by decide
  have h4 : isComplete (slotOf readPending .read).req
      ((slotOf readPending .read).partials ++ [⟨[0x01, 0x02, 0x7F, 0x7E], [0x11, 0x22, 0x33, 0x44]⟩]) = true := by decide
  simp only [receiveChunk, h1, h2, h3, h4]
  simp [show ¬cap < 4 by omega, resolve, releaseHeld, settle, readPending, State.reset, setSlot, notify]
theorem test_rx_partial :
    (receiveChunk 4 .read ⟨[0x01, 0x02, 0x7F, 0x7E], [0x11, 0x22]⟩ 0x4D readPending).slot0.st = .completing := by decide
theorem test_rx_bad_checksum :
    after (exec (.dataSet 0x10 [1, 3, 0, 0] [0x33, 0x44] 0x06) readPending) (fun s => (s.slot0.st, s.fsr, s.order)) =
      some (.csumFailed, 0x008, []) := by decide
theorem test_rx_off_the_space :
    after (exec (.dataSet 0x10 [0x7F, 0x7F, 0x7F, 0x7F] [1, 2] 0x01) readPending) (fun s => (s.notes, s.slot0)) =
      some ([.rxerr .rangeError], readPending.slot0) := by decide
theorem test_rx_over_capacity :
    (receiveChunk 3 .read ⟨[0x01, 0x02, 0x7F, 0x7E], [0x11, 0x22, 0x33, 0x44]⟩ 0x56 readPending).notes =
      [.rxerr .capacity] := by decide
theorem test_rx_unsolicited :
    after (exec (.dataSet 0x10 [1, 2, 0x7F, 0x7E] [] 0x00) State.reset) (·.notes) =
      some [.rxmsg (.dataSet 0x10 [1, 2, 0x7F, 0x7E] [] 0x00)] := by decide
-- P4 step 3, R272
theorem test_rx_identity_reply :
    after (exec (.identityReply 0x10 0x41 [0x64, 2] [0, 0] [0, 0, 0, 0]) identPending)
      (fun s => (s.slot1.st, s.slot1.result.map (·.ident), s.notes)) =
      some (.completed, some (some ⟨0x10, 0x41, [0x64, 2], 0x6402, [0, 0], 0, [0, 0, 0, 0], 0⟩),
        [.resolve .ident .completed]) := by decide
theorem test_rx_identity_request :
    after (exec (.identityRequest 0x10) State.reset) (·.notes) = some [.rxmsg (.identityRequest 0x10)] := by decide
theorem test_rx_reset_message :
    after (exec .reset readPending) (fun s => (s.slot0, s.notes)) =
      some (readPending.slot0, [.rxmsg (.passthrough .reset)]) := by decide
-- P3: the 100th tick does not expire the read, the 101st does; V196
theorem test_tick_counts :
    after (exec .evTick { readPending with slot0 := { readPending.slot0 with idle := 99 } })
      (fun s => (s.slot0.st, s.slot0.idle)) = some (.sent, 100) := by decide
theorem test_tick_expires :
    after (exec .evTick { readPending with slot0 := { readPending.slot0 with idle := 100 } })
      (fun s => (s.slot0.st, s.fsr, s.notes)) =
      some (.timedOut, 0x020, [.resolve .read .timeoutError]) := by decide
-- V190, R290, R23
theorem test_step_illegal_op :
    after (step { State.reset with inputs := [.event (.cmd ⟨0x00, {}⟩)] }) (·.fsr) = some 0x200 := by decide
theorem test_step_reset_input :
    after (step { readPending with inputs := [.resetInput] }) (fun s => (s.slot0, s.order)) =
      some (Slot.reset, []) := by decide
theorem test_step_fetches_word :
    after (step (State.reset.withFetchWord 24 0x643C90)) (·.notes) =
      some [.rxmsg (.passthrough (.noteOn 0 60 100))] := by decide

/-! ### Hypotheses of the statements: for each clause a state and operands that meet it, at a boundary of its range -/

theorem test_witness_StepRunsDecodedInstruction :
    State.reset.inputs = [] ∧ (State.withFetchWord State.reset 8 0x60).inputs = [.event (tableEvent 8 0x60)] ∧
    decodeEvent (tableEvent 8 0x60) = .ok (.srRead 0) := by decide

/-- The commands R72 refuses: a reserved op code on either side of a unit, `W = 3`, `SRN` 6 and 7, a missing slot. -/
theorem test_witness_RefusedCommandIsIllegalOp :
    refusedByR72 ⟨0x0F, {}⟩ = true ∧ refusedByR72 ⟨0x17, {}⟩ = true ∧
    refusedByR72 ⟨0x16, { w := some 3, a := some [0], b := some [0] }⟩ = true ∧
    refusedByR72 ⟨0x60, { srn := some 6 }⟩ = true ∧ refusedByR72 ⟨0x60, { srn := some 7 }⟩ = true ∧
    refusedByR72 ⟨0x53, {}⟩ = true ∧
    ({ State.reset with inputs := [.event (.cmd ⟨0x53, {}⟩)] } : State).inputs = .event (.cmd ⟨0x53, {}⟩) :: [] := by
  decide

theorem test_witness_AcceptedCommandKeepsItsOperands :
    refusedByR72 ⟨0x10, { w := some 2, n := some 0 }⟩ = false ∧ refusedByR72 ⟨0x60, { srn := some 5 }⟩ = false := by
  decide

theorem test_witness_EncodedInstructionDecodesBack :
    Instr.wellFormed (.controlChange 15 119 127) = true ∧ Instr.wellFormed (.pitchBend 0 (-8192)) = true ∧
    encode (.evTick) = .tick ∧ encode .clock = .rx [0xF8] := by decide

/-- A frame of 17 bytes, the longest that every `FRAME_MAX` admits (R6). -/
theorem test_witness_EveryFrameEncodesBack : (List.replicate 17 (0 : Byte)).length ≤ Config.frameMax := by
  simp [Config.frameMax]

theorem test_witness_McDecodeAcceptsWellFormedFrames :
    frameWellFormed [0xF0, 0x01, 0xF7] = true ∧ frameWellFormed [0xF0, 0xF7] = false := by decide

theorem test_witness_ChannelVoiceFramesOnTheWire : (119 : BitVec 7).toNat < 120 := by decide

theorem test_witness_SysExFramesOnTheWire :
    IsClean (List.replicate 12 0x7F) ∧ (0x7F : Byte).toNat < 0x80 ∧
    (List.replicate 12 (0x7F : Byte)).length + 5 ≤ Config.frameMax ∧ 0x01 ≤ (0x01 : Byte).toNat ∧
    (0x7D : Byte).toNat ≤ 0x7D := by
  refine ⟨by unfold IsClean; decide, by decide, by simp [Config.frameMax], by decide, by decide⟩

theorem test_witness_McEncodeAnswersOrFaults :
    (messageValid (.noteOn 15 127 127) = true ∧ variantLength (.noteOn 15 127 127) ≤ Config.frameMax) ∧
    (messageValid (.sysExManufacturer [0x41] (List.replicate Config.frameMax 0)) = true ∧
      Config.frameMax < variantLength (.sysExManufacturer [0x41] (List.replicate Config.frameMax 0))) ∧
    messageValid (.noteOn 0 0 128) = false := by
  refine ⟨⟨by decide, by simp [variantLength, Config.frameMax]⟩, ⟨?_, ?_⟩, by decide⟩
  · simp only [messageValid, List.all_replicate]
    decide
  · simp [variantLength]

theorem test_witness_CodecRoundTrips :
    messageValid (.pitchBend 15 8191) = true ∧ decodeFrame [0xEF, 0x7F, 0x7F] = .ok (.pitchBend 15 8191) ∧
    exec (.mcEncode .clock) State.reset = .next (answered State.reset { rbuf := some [0xF8] }) ∧
    exec (.mcDecode [0xF8]) State.reset = .next (answered State.reset { rmsg := some (.midi .clock) }) ∧
    ([0xF8] : Frame).length ≤ Config.frameMax :=
  ⟨by decide, by decide, rfl, rfl, by simp [Config.frameMax]⟩

theorem test_witness_DxNarrowKnowsFourPatterns :
    isSysEx .clock = false ∧
    narrowsTo (.sysExUniversalNonRealtime 0x10 [0x06, 0x01]) (.identityRequest 0x10) ∧
    narrowsTo (.sysExUniversalNonRealtime 0x10 [0x06, 0x02, 0x41, 0x64, 2, 0, 0, 0, 0, 0, 0])
      (.identityReply ⟨0x10, 0x41, [0x64, 2], 0x6402, [0, 0], 0, [0, 0, 0, 0], 0⟩) ∧
    narrowsTo (.sysExManufacturer [0x41] [0x10, 0, 0, 0x64, 0x11, 1, 2, 3, 4, 0, 0, 0, 4, 0x72])
      (.readRequest 0x10 [1, 2, 3, 4] [0, 0, 0, 4] 0x72) ∧
    narrowsTo (.sysExManufacturer [0x41] [0x10, 0, 0, 0x64, 0x12, 1, 2, 3, 4, 0x76])
      (.dataSet 0x10 [1, 2, 3, 4] [] 0x76) ∧
    isSysEx (.sysExUniversalRealtime 0x10 []) = true ∧ ∀ d, ¬narrowsTo (.sysExUniversalRealtime 0x10 []) d := by
  refine ⟨rfl, .inl ⟨_, rfl, rfl⟩, .inr (.inl ⟨_, _, _, _, _, _, _, _, _, _, rfl, rfl⟩),
    .inr (.inr (.inl ⟨0x10, [1, 2, 3, 4], [0, 0, 0, 4], 0x72, rfl, rfl, rfl, rfl⟩)),
    .inr (.inr (.inr ⟨0x10, [1, 2, 3, 4], [], 0x76, rfl, rfl, rfl⟩)), rfl, ?_⟩
  simp [narrowsTo]

/-- Device-ids on either side of the bound. -/
theorem test_witness_DxMkidreqBuildsIdentityRequest : (0x7F : Byte).toNat < 0x80 ∧ 0x80 ≤ (0x80 : Byte).toNat := by decide

/-- Four greatest digits are valid; a byte of 0x80 and three digits are not. -/
theorem test_witness_IsDigits :
    IsDigits 4 [0x7F, 0x7F, 0x7F, 0x7F] ∧ IsDigits 4 [0, 0, 0, 0] ∧ ¬IsDigits 4 [0, 0, 0, 0x80] ∧ ¬IsDigits 4 [0, 0, 0] ∧
    IsDigits (digitCount .w7) [0x7F] ∧ IsDigits (digitCount .w14) [0x7F, 0x7F] ∧
    IsDigits (digitCount .w28) [0x7F, 0x7F, 0x7F, 0x7F] ∧ ¬IsDigits (digitCount .w7) [0x80] ∧ ¬IsDigits (digitCount .w7) [] := by
  unfold IsDigits; decide

theorem test_witness_DxMkrq1BuildsReadRequest :
    ((0x7F : Byte).toNat < 0x80 ∧ IsDigits 4 [0x7F, 0x7F, 0x7F, 0x7F] ∧ IsDigits 4 [0, 0, 0, 0]) ∧
    ¬((0x80 : Byte).toNat < 0x80 ∧ IsDigits 4 [0, 0, 0, 0] ∧ IsDigits 4 [0, 0, 0, 0]) := by
  unfold IsDigits; decide

theorem test_witness_DxMkdt1BuildsDataSet :
    ((0x7F : Byte).toNat < 0x80 ∧ IsDigits 4 [0, 0, 0, 0] ∧ IsClean [0x7F, 0, 0, 0] ∧
      13 + ([0x7F, 0, 0, 0] : Frame).length ≤ Config.frameMax) ∧
    (IsClean (List.replicate Config.frameMax 0) ∧ Config.frameMax < 13 + (List.replicate Config.frameMax (0 : Byte)).length) ∧
    ¬((0x10 : Byte).toNat < 0x80 ∧ IsDigits 4 [0, 0, 0, 0] ∧ IsClean [0x80]) := by
  refine ⟨⟨by decide, by unfold IsDigits; decide, by unfold IsClean; decide, by simp [Config.frameMax]⟩, ⟨?_, ?_⟩, ?_⟩
  · intro b hb; rw [List.eq_of_mem_replicate hb]; decide
  · simp
  · unfold IsClean IsDigits; decide

theorem test_witness_BuildersObeyTheirLaws :
    (exec (.dxMkidreq 0x7F) State.reset = .next (answered State.reset
      { rmsg := some (.midi (identityRequestMessage 0x7F)), rbuf := some [0xF0, 0x7E, 0x7F, 0x06, 0x01, 0xF7] })) ∧
    (exec (.dxMkrq1 0x7F [0, 0, 0, 0] [0, 0, 0, 0]) State.reset = .next (answered State.reset
      { rmsg := some (.midi (readRequestMessage 0x7F [0, 0, 0, 0] [0, 0, 0, 0] 0)),
        rbuf := some [0xF0, 0x41, 0x7F, 0, 0, 0x64, 0x11, 0, 0, 0, 0, 0, 0, 0, 0, 0, 0xF7] })) ∧
    (exec (.dxMkdt1 0x7F [0, 0, 0, 0] []) State.reset = .next (answered State.reset
      { rmsg := some (.midi (dataSetMessage 0x7F [0, 0, 0, 0] [] 0)),
        rbuf := some [0xF0, 0x41, 0x7F, 0, 0, 0x64, 0x12, 0, 0, 0, 0, 0, 0xF7] })) := ⟨rfl, rfl, rfl⟩

/-- The greatest value of each width and the first that does not fit. -/
theorem test_witness_SbFromintAnswersDigits :
    (127 : BitVec 32).toNat < 2 ^ (7 * digitCount .w7) ∧ 2 ^ (7 * digitCount .w7) ≤ (128 : BitVec 32).toNat ∧
    (16383 : BitVec 32).toNat < 2 ^ (7 * digitCount .w14) ∧ 2 ^ (7 * digitCount .w14) ≤ (16384 : BitVec 32).toNat ∧
    (268435455 : BitVec 32).toNat < 2 ^ (7 * digitCount .w28) ∧
    2 ^ (7 * digitCount .w28) ≤ (268435456 : BitVec 32).toNat := by decide

/-- The greatest sum that fits and the first that does not. -/
theorem test_witness_SbOffsetbyIsBase128Addition :
    toInt [0x7F] + (0 : BitVec 16).toNat * toInt [0x7F] < 2 ^ (7 * digitCount .w7) ∧
    toInt [0x3F] + (64 : BitVec 16).toNat * toInt [0x01] < 2 ^ (7 * digitCount .w7) ∧
    2 ^ (7 * digitCount .w7) ≤ toInt [0x40] + (1 : BitVec 16).toNat * toInt [0x40] ∧
    (65534 : BitVec 16).toNat < 65535 := by decide

/-- A difference in the last digit alone, and in the first. -/
theorem test_witness_SbCmpOrdersLikeIntegers :
    (∀ j, j < 3 → ([1, 2, 3, 4] : Digits).getD j 0 = ([1, 2, 3, 5] : Digits).getD j 0) ∧
    (([1, 2, 3, 4] : Digits).getD 3 0).toNat < (([1, 2, 3, 5] : Digits).getD 3 0).toNat ∧
    (([0x7F] : Digits).getD 0 0).toNat > (([0] : Digits).getD 0 0).toNat := by decide

theorem test_witness_DeviceSizeArithmetic :
    toInt [0x7F, 0x7F, 0x7F, 0x7F] + (0 : BitVec 32).toNat < 2 ^ 28 ∧
    2 ^ 28 ≤ toInt [0x7F, 0x7F, 0x7F, 0x7F] + (1 : BitVec 32).toNat ∧
    toInt [0x7F, 0x7F, 0x7F, 0x7F] = (268435455 : BitVec 32).toNat ∧
    (4 : BitVec 32).toNat ≤ toInt [0, 0, 0, 4] ∧ toInt [0, 0, 0, 4] < (5 : BitVec 32).toNat := by decide

/-- The last region that can be expressed and the first that cannot; a covered region, and one that lacks its last
address. -/
theorem test_witness_RegionQueries :
    toInt [0x7F, 0x7F, 0x7F, 0x7F] + toInt [0, 0, 0, 0] < 2 ^ 28 ∧
    2 ^ 28 ≤ toInt [0x7F, 0x7F, 0x7F, 0x7F] + toInt [0, 0, 0, 1] ∧
    (∀ k, toInt [0, 0, 0, 1] ≤ k → k < toInt [0, 0, 0, 1] + toInt [0, 0, 0, 2] → k ∈ [1, 2]) ∧
    (toInt [0, 0, 0, 1] ≤ 2 ∧ 2 < toInt [0, 0, 0, 1] + toInt [0, 0, 0, 2] ∧ 2 ∉ [1]) := by
  refine ⟨by decide, by decide, ?_, by decide⟩
  simp only [show toInt [0, 0, 0, 1] = 1 by decide, show toInt [0, 0, 0, 2] = 2 by decide]
  intro k h1 h2
  simp only [List.mem_cons, List.not_mem_nil, or_false]
  omega

theorem test_witness_CsComputeAnswersTheComplement :
    (IsDigits 4 [0x40, 0x40, 0, 0] ∧ IsClean []) ∧ ¬(IsDigits 4 [0x40, 0x40, 0, 0] ∧ IsClean [0x80]) ∧
    ((0 : BitVec 7).toNat + plainSum [0x40, 0x40, 0, 0] []) % 128 = 0 := by
  unfold IsDigits IsClean; decide

theorem test_witness_CsVerifyChecksTheSum :
    (IsDigits 4 [1, 2, 0x7F, 0x7E] ∧ IsClean [0x11, 0x22, 0x33, 0x44] ∧ (0x56 : Byte).toNat < 0x80) ∧
    (plainSum [1, 2, 0x7F, 0x7E] [0x11, 0x22, 0x33, 0x44] + (0x56 : Byte).toNat) % 128 = 0 ∧
    (plainSum [1, 2, 0x7F, 0x7E] [0x11, 0x22, 0x33, 0x44] + (0x57 : Byte).toNat) % 128 ≠ 0 ∧
    ¬(IsDigits 4 [1, 2, 0x7F, 0x7E] ∧ IsClean [] ∧ (0x80 : Byte).toNat < 0x80) := by
  unfold IsDigits IsClean; decide

theorem test_witness_SrReadAnswersTheViews :
    (Pending readPending.slot0 ∧ ¬Pending readPending.slot1) ∧ (¬Pending identPending.slot0 ∧ Pending identPending.slot1) := by
  unfold Pending; decide

theorem test_witness_RqSenduEmitsTheFrame :
    exec (.mcEncode .clock) State.reset = .next (answered State.reset { rbuf := some [0xF8] }) ∧
    exec (.mcEncode (.noteOn 16 0 0)) State.reset = .next (faulted State.reset .rangeError) := ⟨rfl, rfl⟩

/-- The greatest timeout, the last region that can be expressed, a slot that is not pending and one that is; and operands
one beyond. -/
theorem test_witness_RqSendrReadRegistersAndEmits :
    ((0x7F : Byte).toNat < 0x80 ∧ IsDigits 4 [0x7F, 0x7F, 0x7F, 0x7F] ∧ IsDigits 4 [0, 0, 0, 0] ∧
      toInt [0x7F, 0x7F, 0x7F, 0x7F] + toInt [0, 0, 0, 0] < 2 ^ 28 ∧
      ((⟨true, 4294967294⟩ : Timeout).has = true → (⟨true, 4294967294⟩ : Timeout).ticks.toNat ≤ 2 ^ 32 - 2)) ∧
    ¬Pending State.reset.slot0 ∧ Pending readPending.slot0 ∧
    ¬((⟨true, 4294967295⟩ : Timeout).has = true → (⟨true, 4294967295⟩ : Timeout).ticks.toNat ≤ 2 ^ 32 - 2) := by
  unfold Pending IsDigits; decide

theorem test_witness_RqSendrIdentRegistersAndEmits :
    ((0x7F : Byte).toNat < 0x80 ∧
      ((⟨false, 4294967295⟩ : Timeout).has = true → (⟨false, 4294967295⟩ : Timeout).ticks.toNat ≤ 2 ^ 32 - 2)) ∧
    ¬Pending State.reset.slot1 ∧ Pending identPending.slot1 ∧ ¬((0x80 : Byte).toNat < 0x80) := by
  unfold Pending; decide

/-- A slot that ended with outcome `o`. -/
def ended (o : RequestOutcome) : State :=
  { State.reset with slot0 := { Slot.reset with st := outcomeState o, result := some (emptyResult o) } }

/-- Each kind of slot `RQ.GET` and `RQ.CANCEL` meet. -/
theorem test_witness_RqGetAnswersHoldsOrFaults :
    (slotOf State.reset .ident).st = .idle ∧ Pending (slotOf readPending .read) ∧ ¬Pending (slotOf State.reset .read) ∧
    ∀ o ∈ [RequestOutcome.completed, .salvaged, .timeoutError, .checksumMismatch, .cancelledError],
      (slotOf (ended o) .read).st ≠ .idle ∧ ¬Pending (slotOf (ended o) .read) ∧
      (slotOf (ended o) .read).result = some (emptyResult o) := by
  unfold Pending; decide

theorem test_witness_RejectedFramesAreReported :
    frameWellFormed [0xF7] = false ∧ (∀ d, ¬narrowsTo (.sysExUniversalNonRealtime 0x10 [0x06]) d) ∧
    ∀ d, ¬narrowsTo (.sysExManufacturer [0x42] []) d := by
  refine ⟨by decide, ?_, ?_⟩ <;> simp [narrowsTo]

theorem test_witness_FrameArrivalIsItsRow : ([0, 0, 0, 0] : Digits).length = 4 := rfl

theorem test_witness_PlainMessagesSurface :
    decodeFrame [0xFF] = .ok .reset ∧ isSysEx .reset = false := ⟨rfl, rfl⟩

theorem test_witness_UnmatchedDeviceMessagesSurface :
    Shape.read ∉ State.reset.order ∧ Shape.ident ∉ State.reset.order := by decide

theorem test_witness_IdentityReplyCompletesTheRequest : Shape.ident ∈ identPending.order := by decide

/-- A pending read of size zero: an empty chunk completes it, whatever `MAP_CAP` is. -/
theorem test_witness_CoveringChunkCompletesTheRead :
    let s := { readPending with slot0 := { readPending.slot0 with req := ⟨0x10, [0, 0, 0, 0], [0, 0, 0, 0]⟩ } }
    Shape.read ∈ s.order ∧ (([] : List Byte) = [] ∨ toInt [0, 0, 0, 0] + 0 - 1 < 2 ^ 28) ∧
    (foldChunks (s.slot0.partials ++ [⟨[0, 0, 0, 0], []⟩])).length ≤ Config.mapCap ∧
    regionCovered s.slot0.req (s.slot0.partials ++ [⟨[0, 0, 0, 0], []⟩]) := by
  refine ⟨by decide, .inl rfl, Nat.zero_le _, fun k h1 h2 => ?_⟩
  exact absurd (Nat.lt_of_le_of_lt h1 h2) (by decide)

/-- An empty chunk leaves a read of 4 bytes incomplete, whatever `MAP_CAP` is; a chunk may end at the last address. -/
theorem test_witness_PartialChunkIsBuffered :
    Shape.read ∈ readPending.order ∧
    (foldChunks (readPending.slot0.partials ++ [⟨[0, 0, 0, 0], []⟩])).length ≤ Config.mapCap ∧
    ¬regionCovered readPending.slot0.req (readPending.slot0.partials ++ [⟨[0, 0, 0, 0], []⟩]) ∧
    toInt [0x7F, 0x7F, 0x7F, 0x7F] + ([0] : List Byte).length - 1 < 2 ^ 28 := by
  refine ⟨by decide, Nat.zero_le _, fun h => ?_, by decide⟩
  obtain ⟨c, hc, -, h2⟩ := h 2146302 (by decide) (by decide)
  obtain rfl : c = ⟨[0, 0, 0, 0], []⟩ := List.mem_singleton.1 hc
  exact absurd h2 (by decide)

/-- A chunk with a wrong checksum, a chunk that ends one beyond the last address, and a read whose partial already holds one
key more than `MAP_CAP`. -/
theorem test_witness_BadChunksFailOrAreDiscarded :
    (Shape.read ∈ readPending.order ∧ (0x06 : Byte) ≠ checksumByte [1, 3, 0, 0] [0x33, 0x44]) ∧
    (2 ^ 28 ≤ toInt [0x7F, 0x7F, 0x7F, 0x7F] + ([1, 2] : List Byte).length - 1) ∧
    Config.mapCap < (foldChunks ([⟨[0, 0, 0, 0], List.replicate (Config.mapCap + 1) 0⟩] ++ [⟨[0, 0, 0, 0], []⟩])).length := by
  refine ⟨by decide, by decide, ?_⟩
  have h := Memory.length_writeFrom (m := []) (k := 0) (data := List.replicate (Config.mapCap + 1) 0)
    (fun p hp => absurd hp (List.not_mem_nil))
  simp only [List.length_nil, Nat.zero_add, List.length_replicate] at h
  show Config.mapCap < (Memory.writeFrom [] 0 (List.replicate (Config.mapCap + 1) 0)).length
  rw [h]
  exact Nat.lt_succ_self _

theorem test_witness_MapPrimitives :
    Memory.wf [(0, 1), (268435455, 2)] = true ∧ toInt [0x7F, 0x7F, 0x7F, 0x7F] + ([0] : List Byte).length - 1 < 2 ^ 28 := by
  decide

theorem test_witness_FoldKeepsTheLaterChunk :
    (toInt [0, 0, 0, 1] ≤ 2 ∧ 2 < toInt [0, 0, 0, 1] + ([5, 6] : List Byte).length) ∧
    toInt [0, 0, 0, 1] + ([5, 6] : List Byte).length ≤ 3 := by decide

/-- A slot no tick touches, one that only counts, and one that expires, with a command held on it. -/
theorem test_witness_TickCountsAndExpires :
    let counting := { readPending with slot0 := { readPending.slot0 with idle := 99 } }
    let expiring := { readPending with slot0 := { readPending.slot0 with idle := 100 }, held := [⟨0, .read⟩] }
    ¬Pending (slotOf State.reset .read) ∧
    (Pending (slotOf counting .read) ∧ (slotOf counting .read).hasTo = true ∧
      min ((slotOf counting .read).idle.toNat + 1) (2 ^ 32 - 1) ≤ (slotOf counting .read).timeout.toNat) ∧
    (Pending (slotOf expiring .read) ∧ (slotOf expiring .read).hasTo = true ∧
      (slotOf expiring .read).timeout.toNat < min ((slotOf expiring .read).idle.toNat + 1) (2 ^ 32 - 1)) := by
  unfold Pending; decide +kernel

/-- A read with a timeout of 100 ticks, 99 of them gone, and two ticks to come. -/
theorem test_witness_IdleTimeoutExpiresOnTime :
    let s := { readPending with slot0 := { readPending.slot0 with idle := 99 },
                                inputs := [.event .tick, .event .tick] }
    inv s = true ∧ Pending (slotOf s .read) ∧ (slotOf s .read).hasTo = true ∧
    2 = (slotOf s .read).timeout.toNat + 1 - (slotOf s .read).idle.toNat ∧
    s.inputs = List.replicate 2 (.event .tick) ++ [] := by
  unfold Pending; decide +kernel

theorem test_witness_ResetLeavesEverythingEmpty :
    ({ readPending with inputs := [.resetInput] } : State).inputs = .resetInput :: [] := rfl

/-- States that meet the invariant and step: reset, and a pending request whose cancellation is next. -/
theorem test_witness_SlotInvariantsKeptByStep :
    inv State.reset = true ∧ step State.reset = .next State.reset ∧ inv readPending = true ∧ inv identPending = true := by
  refine ⟨by decide, rfl, by decide +kernel, by decide +kernel⟩

theorem test_witness_MapCapacityKeptByStep : withinCapacity State.reset := by
  simp [withinCapacity, State.reset, Slot.reset, foldChunks]

/-- A tick that ends a request: the slot was pending and is not afterwards. -/
theorem test_witness_RequestResolvesExactlyOnce :
    let s := { readPending with slot0 := { readPending.slot0 with idle := 100 }, inputs := [.event .tick] }
    inv s = true ∧ Pending (slotOf s .read) ∧ after (step s) (fun t => isPending t.slot0.st) = some false := by
  unfold Pending; decide +kernel

theorem test_witness_FaultStatusIsSticky :
    after (step { readPending with fsr := 0x800, inputs := [.takeTx] }) (·.fsr) = some 0x800 ∧
    after (step { readPending with fsr := 0x800, inputs := [.resetInput] }) (·.fsr) = some 0 := by decide

theorem test_witness_EarlierFaultsChangeNoResult :
    (∀ n, Instr.evTick ≠ .srRead n) ∧ exec .evTick State.reset = .next State.reset := ⟨by simp, rfl⟩

theorem test_witness_SlotsChangeOnlyThroughTheMatcher :
    encode (.srRead 0) = .cmd ⟨0x60, { srn := some 0 }⟩ ∧ (0x60 : Byte) ≠ 0x51 ∧ (0x60 : Byte) ≠ 0x52 ∧ (0x60 : Byte) ≠ 0x54 ∧
    encode (.rqGet 0) = .cmd ⟨0x53, { h := some 0 }⟩ ∧ encode (.rqSendu .clock) = .cmd ⟨0x50, { msg := some .clock }⟩ := by
  decide

theorem test_witness_CommandsAnswerInTheirOwnEvent :
    ({ State.reset with inputs := [.event (.cmd ⟨0x54, { h := some 0 }⟩)] } : State).inputs =
      .event (.cmd ⟨0x54, { h := some 0 }⟩) :: [] ∧ (0x54 : Byte) ≠ 0x53 := by decide

theorem test_witness_TransmittedFramesAreWellFormed :
    ∀ f ∈ (after (exec (.rqSendrIdent 0x10 ⟨false, 0⟩) State.reset) (·.tx)).getD [],
      frameWellFormed f = true ∧ f.length ≤ Config.frameMax := by
  have h : (after (exec (.rqSendrIdent 0x10 ⟨false, 0⟩) State.reset) (·.tx)).getD [] =
      [[0xF0, 0x7E, 0x10, 0x06, 0x01, 0xF7]] := by decide
  rw [h]
  intro f hf
  obtain rfl := List.mem_singleton.1 hf
  exact ⟨by decide, by simp [Config.frameMax]⟩

end Sys2Proof.Tests
end

/-! PROOFS of family 10_state.md: first the shared layer (how a step reaches its instruction, what an arriving frame can
carry, what one instruction can do to the state), then the statements of this family. -/

namespace Sys2Proof.Machine

/-! ### One step, by its next input -/

theorem step_idle {s : State} (h : s.inputs = []) : step s = .next s := by simp [step, h]

theorem step_decoded {s : State} {e : Event} {rest : List Input} {i : Instr} (h : s.inputs = .event e :: rest)
    (hi : decodeEvent e = .ok i) : step s = exec i (withInputs rest s) := by simp [step, h, hi]

theorem step_refused {s : State} {e : Event} {rest : List Input} {r : Rejection} (h : s.inputs = .event e :: rest)
    (hr : decodeEvent e = .error r) : step s = .next (raiseFault .illegalOp (withInputs rest s)) := by
  simp [step, h, hr, refuseCommand]

theorem step_resetInput {s : State} {rest : List Input} (h : s.inputs = .resetInput :: rest) :
    step s = .next (applyReset (withInputs rest s)) := by simp [step, h]

theorem step_takeTx {s : State} {rest : List Input} (h : s.inputs = .takeTx :: rest) :
    step s = .next (takeTx (withInputs rest s)) := by simp [step, h]

theorem step_takeNotification {s : State} {rest : List Input} (h : s.inputs = .takeNotification :: rest) :
    step s = .next (takeNotification (withInputs rest s)) := by simp [step, h]

theorem step_takeResponse {s : State} {rest : List Input} (h : s.inputs = .takeResponse :: rest) :
    step s = .next (takeResponse (withInputs rest s)) := by simp [step, h]

/-! ### The form of an instruction's meaning -/

/-- The forms the 52 meanings have: most operations only compute, most rows are the arrival of a message. -/
inductive InstrForm (i : Instr) : Prop
  | computes (c : Command) (r : Except FaultKind ResultSlots) (henc : encode i = .cmd c)
      (hexec : ∀ s, exec i s = answer r s)
  | sendu (msg : MidiMessage) (hi : i = .rqSendu msg)
  | sendrRead (dev : Byte) (a b : Digits) (timeout : Timeout) (hi : i = .rqSendrRead dev a b timeout)
  | sendrIdent (dev : Byte) (timeout : Timeout) (hi : i = .rqSendrIdent dev timeout)
  | get (h : BitVec 1) (hi : i = .rqGet h)
  | cancel (h : BitVec 1) (hi : i = .rqCancel h)
  | status (srn : BitVec 3) (hi : i = .srRead srn)
  | message (f : Frame) (m : MidiMessage) (henc : encode i = .rx f)
      (hexec : ∀ s, exec i s = .next (receiveMessage Config.mapCap m s))
  | device (f : Frame) (d : DeviceMessage) (henc : encode i = .rx f)
      (hexec : ∀ s, exec i s = .next (deliver Config.mapCap d s))
  | frame (f : Frame) (hi : i = .evRx f)
  | tick (hi : i = .evTick)

theorem instr_form (i : Instr) : InstrForm i := by
  cases i
  case sbFromint | sbToint | sbTobytes | sbFrombytes | sbOffsetby | sbCmp | sbDiff | dsAddi | dsSubi | rgContains |
      rgCovered | csCompute | csVerify | mcDecode | mcEncode | dxNarrow | dxMkidreq | dxMkrq1 | dxMkdt1 =>
    exact .computes _ _ rfl fun _ => rfl
  case rqSendu msg => exact .sendu msg rfl
  case rqSendrRead dev a b t => exact .sendrRead dev a b t rfl
  case rqSendrIdent dev t => exact .sendrIdent dev t rfl
  case rqGet h => exact .get h rfl
  case rqCancel h => exact .cancel h rfl
  case srRead srn => exact .status srn rfl
  case evRx f => exact .frame f rfl
  case evTick => exact .tick rfl
  case noteOff | noteOn | polyKeyPressure | controlChange | channelMode | programChange | channelPressure | pitchBend |
      timeCode | songPositionPointer | songSelect | tuneRequest | clock | start | continueMsg | stop | activeSensing |
      reset | sysExUniversalRealtime | sysExUniversalNonRealtime | sysExManufacturer =>
    exact .message _ _ rfl fun _ => rfl
  case identityRequest | identityReply | readRequest | dataSet => exact .device _ _ rfl fun _ => rfl

/-! ### What a decoder's answer is known to meet -/

/-- Whatever a decoder accepts meets `P`. -/
def Yields {ε α : Type} (P : α → Prop) (x : Except ε α) : Prop := ∀ a, x = .ok a → P a

@[simp] theorem yields_error {ε α : Type} (P : α → Prop) (e : ε) : Yields P (.error e : Except ε α) := nofun

@[simp] theorem yields_ok {ε α : Type} {P : α → Prop} {a : α} : Yields P (.ok a : Except ε α) ↔ P a :=
  ⟨fun h => h a rfl, fun h _ ha => Except.ok.inj ha ▸ h⟩

theorem Yields.map {ε α β : Type} {P : α → Prop} {Q : β → Prop} {x : Except ε α} {f : α → β} (hx : Yields P x)
    (hf : ∀ a, P a → Q (f a)) : Yields Q (x.map f) := by
  cases x with
  | error e => exact yields_error Q e
  | ok a => exact yields_ok.2 (hf a (hx a rfl))

/-! ### What a command decodes to -/

/-- The instruction is an operation of the command port. -/
def IsCommand (i : Instr) : Prop := ∃ c, encode i = .cmd c

@[simp] theorem isCommand_withWidth {w : BitVec 2} {f : Width → Instr} (h : ∀ v, ∃ c, encode (f v) = .cmd c) :
    Yields IsCommand (withWidth w f) := by
  unfold withWidth
  split
  · exact yields_ok.2 (h _)
  · exact yields_error _ _

/-- A command decodes only to an operation, never to an event row or a wire row (R71): each arm of the decoder is an
operation, an operation once its width is checked, or a refusal. -/
theorem decodeCommand_isCommand (c : Command) : Yields IsCommand (decodeCommand c) := by
  unfold decodeCommand
  dsimp only
  repeat' split
  all_goals simp [IsCommand, encode]

/-! ### What a decoded frame can hold (R84, R151, R191) -/

theorem data1_lt (ds : List Byte) : Yields (· < 128) (data1 ds) := by
  unfold data1
  split
  case h_2 d =>
    split
    case isTrue h => exact yields_ok.2 (by simpa [isData] using h)
    case isFalse => exact yields_error _ _
  all_goals exact yields_error _ _

theorem data2_lt (ds : List Byte) : Yields (fun p => p.1 < 128 ∧ p.2 < 128) (data2 ds) := by
  unfold data2
  split
  case h_3 d e =>
    split
    case isTrue h => exact yields_ok.2 (by simpa [isData] using h)
    case isFalse => exact yields_error _ _
  all_goals exact yields_error _ _

theorem pair14_lt {p : Nat × Nat} (h : p.1 < 128 ∧ p.2 < 128) : pair14 p < 16384 := by
  unfold pair14
  omega

theorem decodeChannelVoice_valid (kind : Nat) {channel : Nat} (hc : channel < 16) (ds : List Byte) :
    Yields (messageValid · = true) (decodeChannelVoice kind channel ds) := by
  unfold decodeChannelVoice
  split
  case h_4 =>
    refine (data2_lt ds).map fun p hp => ?_
    split <;> simp [messageValid, *]
  case h_5 | h_6 => exact (data1_lt ds).map fun d hd => by simp [messageValid, *]
  case h_7 =>
    refine (data2_lt ds).map fun p hp => ?_
    have hbend := pair14_lt hp
    simp only [messageValid, Bool.and_eq_true, decide_eq_true_eq]
    omega
  case h_8 => exact yields_error _ _
  all_goals exact (data2_lt ds).map fun p hp => by simp [messageValid, *]

theorem decodeSystem_valid (st : Nat) (ds : List Byte) : Yields (messageValid · = true) (decodeSystem st ds) := by
  unfold decodeSystem
  split
  case h_1 =>
    refine (data1_lt ds).map fun d hd => ?_
    simp only [messageValid, Bool.and_eq_true, decide_eq_true_eq]
    omega
  case h_2 =>
    exact (data2_lt ds).map fun p hp => by simpa [messageValid] using pair14_lt hp
  case h_3 => exact (data1_lt ds).map fun d hd => by simp [messageValid, *]
  case h_11 => exact yields_error _ _
  all_goals exact Yields.map (P := fun _ => True) (fun _ _ => trivial) fun _ _ => rfl

/-- The header of a SysEx body splits off its first bytes, so clean bytes stay clean (R190 to R194). -/
theorem decodeSysExBody_valid {body : List Byte} (h : body.all isData = true) :
    Yields (messageValid · = true) (decodeSysExBody body) := by
  unfold decodeSysExBody
  split
  · exact yields_error _ _
  · rename_i b rest
    simp only [List.all_cons, Bool.and_eq_true] at h
    obtain ⟨hb, hrest⟩ := h
    split
    case h_1 | h_3 => exact yields_ok.2 (by simpa [messageValid] using hrest)
    case h_2 | h_4 | h_6 => exact yields_error _ _
    case h_5 hb0 => exact yields_ok.2 (by simpa [messageValid, manufacturerIdOk, hb0, and_assoc] using hrest)
    case h_7 rest _ _ h0 h7F h7F' h7E h7E' _ =>
      have hlt : b.toNat < 0x80 := by simpa [isData] using hb
      have hne : b.toNat ≠ 0x7F ∧ b.toNat ≠ 0x7E := by
        cases rest with
        | nil => exact ⟨(h7F' · rfl), (h7E' · rfl)⟩
        | cons dev payload => exact ⟨(h7F dev payload · rfl), (h7E dev payload · rfl)⟩
      have hid : 1 ≤ b.toNat ∧ b.toNat ≤ 0x7D := by
        have : b.toNat ≠ 0 := h0
        omega
      exact yields_ok.2 (by simpa [messageValid, manufacturerIdOk, hid] using hrest)

theorem decodeSysEx_valid (ds : List Byte) : Yields (messageValid · = true) (decodeSysEx ds) := by
  unfold decodeSysEx
  split
  · exact yields_error _ _
  · split
    · exact yields_error _ _
    · split
      · exact yields_error _ _
      · exact decodeSysExBody_valid (by simpa using ‹¬(!ds.dropLast.all isData) = true›)

/-- Every message decoded from a frame meets the field invariants (R151, R152). -/
theorem decodeFrame_valid (f : Frame) : Yields (messageValid · = true) (decodeFrame f) := by
  cases f with
  | nil => exact yields_error _ _
  | cons b ds =>
    simp only [decodeFrame]
    split
    · exact yields_error _ _
    · split
      · exact decodeChannelVoice_valid _ (Nat.mod_lt _ (by decide)) ds
      · split
        · exact decodeSysEx_valid ds
        · exact decodeSystem_valid _ ds

/-- A DataSet brings four address digits and clean data (R191, R209); the other device messages bring what they like. -/
def CleanDataSet (d : DeviceMessage) : Prop :=
  ∀ dev addr data c, d = .dataSet dev addr data c → validDigits 4 addr = true ∧ data.all isData = true

theorem slice_isData {p : List Byte} (h : p.all isData = true) (i n : Nat) : (slice p i n).all isData = true := by
  rw [List.all_eq_true] at h ⊢
  exact fun b hb => h b (List.mem_of_mem_drop (List.mem_of_mem_take hb))

theorem narrowManufacturer_clean {id p : List Byte} {d : DeviceMessage} (hp : p.all isData = true)
    (h : narrowManufacturer id p = some d) : CleanDataSet d := by
  unfold narrowManufacturer at h
  rintro dev addr data c rfl
  split at h
  · split at h
    · cases h
    · split at h
      case isTrue hlen =>
        obtain ⟨-, rfl, rfl, -⟩ := DeviceMessage.dataSet.inj (Option.some.inj h)
        have h4 : (slice p 5 4).length = 4 := by
          simp only [slice, List.length_take, List.length_drop]
          omega
        exact ⟨by simp [validDigits, h4, slice_isData hp], slice_isData hp ..⟩
      case isFalse => cases h
  · cases h

/-- Narrowing keeps the payload's bytes, so a DataSet out of a valid message is clean (R209). -/
theorem narrow_clean {m : MidiMessage} {d : DeviceMessage} (hm : messageValid m = true) (h : narrow m = some d) :
    CleanDataSet d := by
  cases m
  case sysExManufacturer id p =>
    simp only [messageValid, Bool.and_eq_true] at hm
    exact narrowManufacturer_clean hm.2 h
  case sysExUniversalNonRealtime dev p =>
    simp only [narrow, narrowUniversal] at h
    rintro _ _ _ _ rfl
    split at h
    · cases h
    · split at h <;> cases h
  case sysExUniversalRealtime => cases h
  all_goals
    cases h
    exact nofun

/-! ### The row of a frame is the arrival of that frame (log 4) -/

/-- The integer readings of an identity reply are made of its bytes, so the record can be built again from them (R207). -/
theorem mkIdentityReply_of_narrowUniversal {dev : Byte} {p : List Byte} {r : IdentityReply}
    (h : narrowUniversal dev p = some (.identityReply r)) :
    mkIdentityReply r.deviceId r.manufacturer r.familyBytes r.numberBytes r.revBytes = r := by
  unfold narrowUniversal at h
  split at h
  · cases h
  · split at h
    · cases h
      rfl
    · cases h

/-- The row of a valid message has the meaning of that message's arrival: its fields fit the row's, and the four narrowed
rows begin where narrowing ends (R235). -/
theorem exec_rowOfMessage {m : MidiMessage} (hm : messageValid m = true) (s : State) :
    exec (rowOfMessage m) s = .next (receiveMessage Config.mapCap m s) := by
  cases m
  case sysExUniversalNonRealtime dev p =>
    simp only [rowOfMessage]
    split
    · rename_i h
      simp [exec, execIdentityRequest, receiveMessage, narrow, h]
    · rename_i h
      simp [exec, execIdentityReply, receiveMessage, narrow, h, mkIdentityReply_of_narrowUniversal h]
    · rfl
  case sysExManufacturer id p =>
    simp only [rowOfMessage]
    split
    · rename_i h
      simp [exec, execReadRequest, receiveMessage, narrow, h]
    · rename_i h
      simp [exec, execDataSet, receiveMessage, narrow, h]
    · rfl
  case noteOff | noteOn | polyKeyPressure | controlChange | channelMode | programChange | channelPressure | pitchBend |
      timeCode | songPositionPointer | songSelect =>
    simp only [messageValid, Bool.and_eq_true, decide_eq_true_eq] at hm
    simp (disch := omega) only [rowOfMessage, exec, execNoteOff, execNoteOn, execPolyKeyPressure, execControlChange,
      execChannelMode, execProgramChange, execChannelPressure, execPitchBend, execTimeCode, execSongPositionPointer,
      execSongSelect, BitVec.toNat_ofNat, Nat.mod_eq_of_lt]
  all_goals rfl

theorem exec_decodeRx (f : Frame) (s : State) :
    exec (decodeRx f) s = .next (receiveFrame Config.mapCap f s) := by
  unfold decodeRx receiveFrame
  have hv := decodeFrame_valid f
  split
  · rename_i m hm
    simp [exec_rowOfMessage (hv m hm), hm]
  · rename_i e he
    simp [exec, execEvRx, receiveFrame, he]

/-! ### What one event can do to the state -/

/-- Everything an event can make of state `s`, with the conditions the matcher's arms have checked. -/
inductive EventEffect (s : State) : State → Prop
  | responded (r : ResultSlots) : EventEffect s (respond r s)
  | raised (k : FaultKind) : EventEffect s (raiseFault k s)
  | sent (r : ResultSlots) (f : Frame) : EventEffect s (respond r (emitTx f s))
  | readRegistered (r : ResultSlots) (req : Request) (tmo : Timeout) (f : Frame) (ha : validDigits 4 req.addr = true)
      (hb : validDigits 4 req.size = true) (hreg : regionOk req.addr req.size = true) (ht : timeoutOk tmo = true)
      (hfree : isPending s.slot0.st = false) : EventEffect s (respond r (registerRequest .read req tmo f s))
  | identRegistered (r : ResultSlots) (dev : BitVec 7) (tmo : Timeout) (f : Frame) (ht : timeoutOk tmo = true)
      (hfree : isPending s.slot1.st = false) :
      EventEffect s (respond r (registerRequest .ident { s.slot1.req with dev := dev } tmo f s))
  | held (sh : Shape) (hpend : isPending (slotOf s sh).st = true) : EventEffect s (holdGet sh s)
  | got (sh : Shape) (r : ResultRecord) (hres : (slotOf s sh).result = some r) :
      EventEffect s (countCommand (answerGet s.issued r s))
  | cancelled (r : ResultSlots) (sh : Shape) (hpend : isPending (slotOf s sh).st = true) :
      EventEffect s (respond r (resolve sh (emptyResult .cancelledError) s))
  | rejected (k : FaultKind) : EventEffect s (rxError k s)
  | delivered (d : DeviceMessage) (hd : CleanDataSet d) : EventEffect s (deliver Config.mapCap d s)
  | ticked : EventEffect s (tickSlot .ident (tickSlot .read s))

section Effects

variable {s t : State}

theorem answer_effect {r : Except FaultKind ResultSlots} (h : answer r s = .next t) : EventEffect s t := by
  rcases answer_cases r s with ⟨slots, -, ha⟩ | ⟨k, -, ha⟩ <;> rw [ha] at h <;> cases h
  · exact .responded slots
  · exact .raised k

theorem execRqSendu_effect {msg : MidiMessage} (h : execRqSendu msg s = .next t) : EventEffect s t := by
  unfold execRqSendu at h
  split at h <;> cases h
  · exact .raised _
  · exact .sent _ _

theorem execRqSendrRead_effect {dev : Byte} {a b : Digits} {tmo : Timeout}
    (h : execRqSendrRead dev a b tmo s = .next t) : EventEffect s t := by
  unfold execRqSendrRead at h
  split_ifs at h with hdev hab hreg hto hbusy <;> cases h
  case neg =>
    simp only [Bool.not_eq_true', Bool.and_eq_true, Bool.not_eq_false, Bool.not_eq_true] at hab hreg hto hbusy
    exact .readRegistered _ _ _ _ hab.1 hab.2 hreg hto hbusy
  all_goals exact .raised _

theorem execRqSendrIdent_effect {dev : Byte} {tmo : Timeout} (h : execRqSendrIdent dev tmo s = .next t) :
    EventEffect s t := by
  unfold execRqSendrIdent at h
  split_ifs at h with hdev hto hbusy <;> cases h
  case neg => exact .identRegistered _ _ _ _ (by simpa using hto) (by simpa using hbusy)
  all_goals exact .raised _

theorem execRqGet_effect {b : BitVec 1} (h : execRqGet b s = .next t) : EventEffect s t := by
  unfold execRqGet at h
  dsimp only at h
  split_ifs at h with hidle hpend
  · cases h
    exact .raised _
  · cases h
    exact .held _ hpend
  · split at h
    · cases h
    · cases h
      exact .got _ _ ‹_›

theorem execRqCancel_effect {b : BitVec 1} (h : execRqCancel b s = .next t) : EventEffect s t := by
  unfold execRqCancel at h
  dsimp only at h
  split_ifs at h with hpend <;> cases h
  · exact .raised _
  · exact .cancelled _ _ (by simpa using hpend)

theorem execSrRead_effect {srn : BitVec 3} (h : execSrRead srn s = .next t) : EventEffect s t := by
  unfold execSrRead at h
  split at h <;> cases h
  · exact .raised _
  · exact .responded _

theorem receiveFrame_effect (f : Frame) (s : State) : EventEffect s (receiveFrame Config.mapCap f s) := by
  rcases receiveFrame_cases Config.mapCap f s with h | ⟨m, -, -, h⟩ | ⟨m, d, hm, hd, h⟩ <;> rw [h]
  · exact .rejected _
  · exact .rejected _
  · exact .delivered d (narrow_clean (decodeFrame_valid f m hm) hd)

/-- Executing an operation of the command port. -/
theorem exec_command_effect {i : Instr} (hi : IsCommand i) (h : exec i s = .next t) : EventEffect s t := by
  obtain ⟨c, hc⟩ := hi
  cases instr_form i with
  | computes _ r _ hexec => exact answer_effect (hexec s ▸ h)
  | sendu msg hi => subst hi; exact execRqSendu_effect h
  | sendrRead dev a b tmo hi => subst hi; exact execRqSendrRead_effect h
  | sendrIdent dev tmo hi => subst hi; exact execRqSendrIdent_effect h
  | get b hi => subst hi; exact execRqGet_effect h
  | cancel b hi => subst hi; exact execRqCancel_effect h
  | status srn hi => subst hi; exact execSrRead_effect h
  | message f m henc _ => cases henc.symm.trans hc
  | device f d henc _ => cases henc.symm.trans hc
  | frame f hi => subst hi; cases hc
  | tick hi => subst hi; cases hc

/-- Executing whatever an event decodes to. -/
theorem exec_event_effect {e : Event} {i : Instr} (hd : decodeEvent e = .ok i) (h : exec i s = .next t) :
    EventEffect s t := by
  cases e with
  | cmd c => exact exec_command_effect (decodeCommand_isCommand c i hd) h
  | rx f =>
    cases hd
    rw [exec_decodeRx] at h
    cases h
    exact receiveFrame_effect f s
  | tick =>
    cases hd
    cases h
    exact .ticked

end Effects

/-- Everything a step can do, by the input it takes. -/
inductive StepEffect (s : State) : State → Prop
  | idle (h : s.inputs = []) : StepEffect s s
  | event (e : Event) (rest : List Input) (t : State) (h : s.inputs = .event e :: rest)
      (heff : EventEffect (withInputs rest s) t) : StepEffect s t
  | resetInput (rest : List Input) (h : s.inputs = .resetInput :: rest) :
      StepEffect s (applyReset (withInputs rest s))
  | takeTx (rest : List Input) (h : s.inputs = .takeTx :: rest) : StepEffect s (takeTx (withInputs rest s))
  | takeNotification (rest : List Input) (h : s.inputs = .takeNotification :: rest) :
      StepEffect s (takeNotification (withInputs rest s))
  | takeResponse (rest : List Input) (h : s.inputs = .takeResponse :: rest) :
      StepEffect s (takeResponse (withInputs rest s))

theorem step_effect {s t : State} (h : step s = .next t) : StepEffect s t := by
  match hin : s.inputs with
  | [] =>
    cases (step_idle hin).symm.trans h
    exact .idle hin
  | .event e :: rest =>
    refine .event e rest t hin ?_
    cases hd : decodeEvent e with
    | ok i => exact exec_event_effect hd ((step_decoded hin hd).symm.trans h)
    | error r =>
      cases (step_refused hin hd).symm.trans h
      exact .raised _
  | .resetInput :: rest =>
    cases (step_resetInput hin).symm.trans h
    exact .resetInput rest hin
  | .takeTx :: rest =>
    cases (step_takeTx hin).symm.trans h
    exact .takeTx rest hin
  | .takeNotification :: rest =>
    cases (step_takeNotification hin).symm.trans h
    exact .takeNotification rest hin
  | .takeResponse :: rest =>
    cases (step_takeResponse hin).symm.trans h
    exact .takeResponse rest hin

/-! ### FSR only gains bits, never bit 0 (R41) -/

/-- FSR goes from `a` to `b` by setting bits other than bit 0. -/
structure FsrGrows (a b : BitVec 12) : Prop where
  keeps : ∀ j, a.getLsbD j = true → b.getLsbD j = true
  zero : a.getLsbD 0 = false → b.getLsbD 0 = false

theorem FsrGrows.refl (a : BitVec 12) : FsrGrows a a := ⟨fun _ => id, id⟩

theorem FsrGrows.trans {a b c : BitVec 12} (h : FsrGrows a b) (h' : FsrGrows b c) : FsrGrows a c :=
  ⟨fun j hj => h'.keeps j (h.keeps j hj), fun h0 => h'.zero (h.zero h0)⟩

theorem fsrGrows_fsrWith (a : BitVec 12) (k : FaultKind) : FsrGrows a (fsrWith a (faultCode k)) :=
  ⟨fun _ => fsrWith_keeps, fsrWith_faultCode_zero k⟩

theorem fsrGrows_fsrAfter (a : BitVec 12) (o : RequestOutcome) : FsrGrows a (fsrAfter a o) :=
  ⟨fun _ => fsrAfter_keeps, fsrAfter_zero o⟩

theorem fsrGrows_answerGet (tag : Nat) (r : ResultRecord) (s : State) : FsrGrows s.fsr (answerGet tag r s).fsr := by
  rw [answerGet_fsr]
  cases outcomeFault r.outcome with
  | none => exact .refl _
  | some k => exact fsrGrows_fsrWith _ k

theorem fsrGrows_answerAll (r : ResultRecord) (hs : List HeldGet) (s : State) :
    FsrGrows s.fsr (hs.foldl (fun t h => answerGet h.tag r t) s).fsr := by
  induction hs generalizing s with
  | nil => exact .refl _
  | cons h hs ih => exact (fsrGrows_answerGet h.tag r s).trans (ih _)

theorem fsrGrows_releaseHeld (sh : Shape) (r : ResultRecord) (s : State) :
    FsrGrows s.fsr (releaseHeld sh r s).fsr :=
  fsrGrows_answerAll r (s.held.filter fun h => h.slot = sh) { s with held := s.held.filter fun h => h.slot ≠ sh }

theorem fsrGrows_resolve (sh : Shape) (r : ResultRecord) (s : State) : FsrGrows s.fsr (resolve sh r s).fsr := by
  obtain ⟨-, -, -, hfsr, -⟩ := settle_spec sh r s
  have hsettle : FsrGrows s.fsr (settle sh r s).fsr := hfsr ▸ fsrGrows_fsrAfter _ _
  exact hsettle.trans (fsrGrows_releaseHeld sh r _)

theorem setSlot_fsr (s : State) (sh : Shape) (sl : Slot) : (setSlot s sh sl).fsr = s.fsr := (setSlot_frame s sh sl).2.1

theorem fsrGrows_setSlot (s : State) (sh : Shape) (sl : Slot) : FsrGrows s.fsr (setSlot s sh sl).fsr :=
  setSlot_fsr s sh sl ▸ .refl _

theorem fsrGrows_receiveChunk (cap : Nat) (sh : Shape) (c : Chunk) (b : Byte) (s : State) :
    FsrGrows s.fsr (receiveChunk cap sh c b s).fsr := by
  rcases receiveChunk_cases cap sh c b s with ⟨-, h⟩ | ⟨-, h⟩ | ⟨-, -, h⟩ | ⟨-, -, -, h⟩ | ⟨-, -, -, h⟩ <;> rw [h]
  · exact fsrGrows_resolve ..
  · exact fsrGrows_fsrWith ..
  · exact fsrGrows_fsrWith ..
  · exact fsrGrows_resolve ..
  · exact fsrGrows_setSlot ..

theorem fsrGrows_deliver (cap : Nat) (d : DeviceMessage) (s : State) : FsrGrows s.fsr (deliver cap d s).fsr := by
  rcases deliver_cases cap d s with ⟨_, _, _, _, -, -, h⟩ | ⟨_, -, -, h⟩ | h <;> rw [h]
  · exact fsrGrows_receiveChunk ..
  · exact fsrGrows_resolve ..
  · exact .refl _

theorem expire_eq (sh : Shape) (s : State) :
    ∃ r, expire sh s = resolve sh r s ∧
      (r = emptyResult .timeoutError ∨
        (slotOf s sh).partials ≠ [] ∧ r = salvagedResult (foldChunks (slotOf s sh).partials)) := by
  unfold expire
  dsimp only
  split
  · exact ⟨_, rfl, .inl rfl⟩
  · exact ⟨_, rfl, .inr ⟨‹_›, rfl⟩⟩

theorem fsrGrows_tickSlot (sh : Shape) (s : State) : FsrGrows s.fsr (tickSlot sh s).fsr := by
  rcases tickSlot_cases sh s with ⟨-, h⟩ | ⟨-, -, h⟩ | ⟨-, -, h⟩ <;> rw [h]
  · exact .refl _
  · exact fsrGrows_setSlot ..
  · obtain ⟨r, hr, -⟩ := expire_eq sh (setSlot s sh { slotOf s sh with idle := idleNext (slotOf s sh).idle })
    exact hr ▸ (fsrGrows_setSlot ..).trans (fsrGrows_resolve ..)

theorem EventEffect.fsrGrows {s t : State} (h : EventEffect s t) : FsrGrows s.fsr t.fsr := by
  cases h with
  | responded | sent | held => exact .refl _
  | raised k | rejected k => exact fsrGrows_fsrWith _ k
  | readRegistered r req tmo f => exact fsrGrows_setSlot ..
  | identRegistered r dev tmo f => exact fsrGrows_setSlot ..
  | got sh r => exact fsrGrows_answerGet ..
  | cancelled r sh => exact fsrGrows_resolve ..
  | delivered d => exact fsrGrows_deliver ..
  | ticked => exact (fsrGrows_tickSlot .read s).trans (fsrGrows_tickSlot .ident _)


/-- Settles O55, by the input the step takes: FSR only grows along an event, the ports leave it alone, and the reset input
clears it. -/
theorem faultStatusIsSticky : Obligations.FaultStatusIsSticky := by
  intro s t i rest hin hstep
  cases step_effect hstep with
  | idle h => cases hin.symm.trans h
  | event e rest' _ h heff =>
    cases hin.symm.trans h
    exact ⟨fun _ => heff.fsrGrows.keeps, nofun⟩
  | resetInput rest' h =>
    cases hin.symm.trans h
    exact ⟨fun hne => absurd rfl hne, fun _ => rfl⟩
  | takeTx rest' h | takeNotification rest' h | takeResponse rest' h =>
    cases hin.symm.trans h
    exact ⟨fun _ _ => id, nofun⟩

/-! ### The invariant of the slots, as propositions -/

/-- What `inv` asks of a slot because of its shape. -/
def shapeSlotOk : Shape → Slot → Bool
  | .read => readSlotOk
  | .ident => identSlotOk

/-- All that `inv` asks of slot `sh` by itself. -/
structure SlotInv (sh : Shape) (sl : Slot) : Prop where
  state : stateOk sl = true
  request : requestOk sl = true
  partials : ∀ c ∈ sl.partials, chunkOk c = true
  shape : shapeSlotOk sh sl = true

/-- What `inv` asks of everything but FSR: the slots, `order` and the held commands. -/
structure MatcherInv (s : State) : Prop where
  slots : ∀ sh, SlotInv sh (slotOf s sh)
  nodup : s.order.Nodup
  order : ∀ sh, sh ∈ s.order ↔ isPending (slotOf s sh).st = true
  held : ∀ h ∈ s.held, isPending (slotOf s h.slot).st = true

theorem slotInv_iff (sh : Shape) (sl : Slot) : SlotInv sh sl ↔ slotOk sl = true ∧ shapeSlotOk sh sl = true := by
  simp only [slotOk, Bool.and_eq_true, List.all_eq_true]
  exact ⟨fun ⟨a, b, c, d⟩ => ⟨⟨⟨a, b⟩, c⟩, d⟩, fun ⟨⟨⟨a, b⟩, c⟩, d⟩ => ⟨a, b, c, d⟩⟩

theorem forall_shape {P : Shape → Prop} : (∀ sh, P sh) ↔ P .read ∧ P .ident :=
  ⟨fun h => ⟨h _, h _⟩, fun ⟨hr, hi⟩ sh => by cases sh <;> assumption⟩

theorem inv_iff (s : State) : inv s = true ↔ MatcherInv s ∧ s.fsr.getLsbD 0 = false := by
  simp only [inv, orderOk, heldOk, Bool.and_eq_true, decide_eq_true_eq, List.all_eq_true]
  constructor
  · rintro ⟨⟨⟨⟨⟨⟨h0, h1⟩, hread⟩, hident⟩, ⟨hnodup, ho0⟩, ho1⟩, hheld⟩, hfsr⟩
    exact ⟨⟨forall_shape.2 ⟨(slotInv_iff ..).2 ⟨h0, hread⟩, (slotInv_iff ..).2 ⟨h1, hident⟩⟩, hnodup,
      forall_shape.2 ⟨ho0, ho1⟩, hheld⟩, hfsr⟩
  · rintro ⟨⟨hslots, hnodup, horder, hheld⟩, hfsr⟩
    obtain ⟨h0, hread⟩ := (slotInv_iff ..).1 (hslots .read)
    obtain ⟨h1, hident⟩ := (slotInv_iff ..).1 (hslots .ident)
    exact ⟨⟨⟨⟨⟨⟨h0, h1⟩, hread⟩, hident⟩, ⟨hnodup, horder .read⟩, horder .ident⟩, hheld⟩, hfsr⟩

/-- A request R33 (e) and R222 allow: valid digits and region, and a timeout in range. -/
structure RequestFits (req : Request) (hasTo : Bool) (timeout : BitVec 32) : Prop where
  addr : validDigits 4 req.addr = true
  size : validDigits 4 req.size = true
  region : regionOk req.addr req.size = true
  timeout : hasTo = true → timeout.toNat ≤ 2 ^ 32 - 2

theorem requestOk_iff (sl : Slot) :
    requestOk sl = true ↔ RequestFits sl.req sl.hasTo sl.timeout ∧
      (isPending sl.st = true → sl.hasTo = true → sl.idle.toNat ≤ sl.timeout.toNat) := by
  have himp : ∀ (b : Bool) (p : Prop) [Decidable p], (!b || decide p) = true ↔ (b = true → p) := by
    intro b p _
    cases b <;> simp
  simp only [requestOk, Bool.and_eq_true, himp, and_imp]
  exact ⟨fun ⟨⟨⟨⟨a, b⟩, c⟩, d⟩, e⟩ => ⟨⟨a, b, c, d⟩, e⟩, fun ⟨⟨a, b, c, d⟩, e⟩ => ⟨⟨⟨⟨a, b⟩, c⟩, d⟩, e⟩⟩

/-! ### Slots the matcher makes -/

/-- A pending slot has no result, and only a Completing one holds partials (R33 (a), (b)). -/
theorem stateOk_pending {sl : Slot} (h : stateOk sl = true) (hp : isPending sl.st = true) :
    sl.result = none ∧ (sl.st ≠ .completing → sl.partials = []) := by
  cases hst : sl.st <;> simp_all [stateOk, isPending]

theorem isPending_outcomeState (o : RequestOutcome) : isPending (outcomeState o) = false := by
  cases o <;> rfl

/-- A result record slot `sh` may end with (R34, R250). -/
def recordOk : Shape → ResultRecord → Prop
  | .read, r => resultOk r = true ∧ r.ident = none
  | .ident, r => resultOk r = true ∧ r.outcome ≠ .salvaged ∧ r.map = [] ∧
      r.ident.isSome = decide (r.outcome = .completed)

/-- The slot a request leaves behind, whatever its idle counter was. -/
theorem slotInv_ended {sh : Shape} {sl : Slot} {r : ResultRecord} (h : SlotInv sh sl) (hr : recordOk sh r)
    (n : BitVec 32) :
    SlotInv sh { sl with st := outcomeState r.outcome, idle := n, partials := [], result := some r } where
  state := by
    have hres : resultOk r = true := by cases sh <;> exact hr.1
    cases ho : r.outcome <;> simp [stateOk, outcomeState, ho, hres]
  request := (requestOk_iff _).2
    ⟨((requestOk_iff sl).1 h.request).1, fun hp => by simp [isPending_outcomeState] at hp⟩
  partials := by simp
  shape := by
    cases sh with
    | read => simpa [shapeSlotOk, readSlotOk] using hr.2
    | ident =>
      obtain ⟨-, hsal, hmap, hid⟩ := hr
      cases ho : r.outcome <;> simp_all [shapeSlotOk, identSlotOk, outcomeState]

theorem slotInv_sent (sh : Shape) {req : Request} {tmo : Timeout} (h : RequestFits req tmo.has tmo.ticks) :
    SlotInv sh { st := .sent, req := req, hasTo := tmo.has, timeout := tmo.ticks, idle := 0, partials := [],
                 result := none } where
  state := by simp [stateOk]
  request := (requestOk_iff _).2 ⟨h, fun _ _ => by simp⟩
  partials := by simp
  shape := by cases sh <;> rfl

theorem slotInv_counted {sh : Shape} {sl : Slot} (h : SlotInv sh sl) {n : BitVec 32}
    (hn : n.toNat ≤ sl.timeout.toNat) : SlotInv sh { sl with idle := n } where
  state := h.state
  request := (requestOk_iff _).2 ⟨((requestOk_iff sl).1 h.request).1, fun _ _ => hn⟩
  partials := h.partials
  shape := by cases sh <;> exact h.shape

/-- Only slot 0 buffers: slot 1 is never Completing (R250). -/
theorem slotInv_buffered {sl : Slot} (h : SlotInv .read sl) (hp : isPending sl.st = true) {c : Chunk}
    (hc : chunkOk c = true) :
    SlotInv .read { sl with partials := sl.partials ++ [c], idle := 0, st := .completing } where
  state := by simp [stateOk, (stateOk_pending h.state hp).1]
  request := (requestOk_iff _).2 ⟨((requestOk_iff sl).1 h.request).1, fun _ _ => by simp⟩
  partials := by
    intro d hd
    rcases List.mem_append.1 hd with hd | hd
    · exact h.partials d hd
    · exact List.mem_singleton.1 hd ▸ hc
  shape := h.shape

/-! ### Records that end a request -/

theorem recordOk_emptyResult (sh : Shape) {o : RequestOutcome} (hs : o ≠ .salvaged) (hc : o ≠ .completed) :
    recordOk sh (emptyResult o) := by
  cases sh <;> simp [recordOk, emptyResult, resultOk, Memory.wf_nil, hs, hc]

theorem recordOk_identResult (r : IdentityReply) : recordOk .ident (identResult r) := by
  simp [recordOk, identResult, resultOk, Memory.wf_nil]

theorem recordOk_readResult {m : Memory} (hm : m.wf = true) : recordOk .read (readResult m) := by
  simp [recordOk, readResult, resultOk, hm]

theorem recordOk_salvagedResult {m : Memory} (hm : m.wf = true) : recordOk .read (salvagedResult m) := by
  simp [recordOk, salvagedResult, resultOk, hm]

theorem chunkOk_inSpace {c : Chunk} (h : chunkOk c = true) : chunkInSpace c = true := by
  simp only [chunkOk, Bool.and_eq_true] at h
  exact h.2

/-! ### Operations that keep the invariant -/

/-- An operation that touches neither slots, `order` nor held commands. -/
theorem MatcherInv.congr {s t : State} (h : MatcherInv s) (hslot : ∀ sh, slotOf t sh = slotOf s sh)
    (horder : t.order = s.order) (hheld : t.held = s.held) : MatcherInv t where
  slots sh := hslot sh ▸ h.slots sh
  nodup := horder ▸ h.nodup
  order sh := by rw [horder, hslot, h.order]
  held g hg := by rw [hslot]; exact h.held g (hheld ▸ hg)

/-- An operation that rewrites one slot, and `order` and the held commands only for that slot. -/
theorem MatcherInv.update {s t : State} (h : MatcherInv s) (sh : Shape) (hslot : SlotInv sh (slotOf t sh))
    (hother : ∀ sh', sh' ≠ sh → slotOf t sh' = slotOf s sh') (hnodup : t.order.Nodup)
    (hsame : sh ∈ t.order ↔ isPending (slotOf t sh).st = true)
    (hrest : ∀ sh', sh' ≠ sh → (sh' ∈ t.order ↔ sh' ∈ s.order))
    (hheld : ∀ g ∈ t.held, g ∈ s.held ∧ (g.slot = sh → isPending (slotOf t sh).st = true)) : MatcherInv t where
  slots sh' := by
    by_cases he : sh' = sh
    · exact he ▸ hslot
    · exact hother sh' he ▸ h.slots sh'
  nodup := hnodup
  order sh' := by
    by_cases he : sh' = sh
    · exact he ▸ hsame
    · rw [hrest sh' he, hother sh' he, h.order]
  held g hg := by
    obtain ⟨hgs, hgp⟩ := hheld g hg
    by_cases he : g.slot = sh
    · exact he ▸ hgp he
    · exact hother g.slot he ▸ h.held g hgs

/-- Rewriting one slot alone, when it stays pending. -/
theorem MatcherInv.after_setSlot {s : State} (h : MatcherInv s) {sh : Shape} {sl : Slot} (hsl : SlotInv sh sl)
    (hold : isPending (slotOf s sh).st = true) (hnew : isPending sl.st = true) : MatcherInv (setSlot s sh sl) := by
  obtain ⟨horder, -, -, -, -, hheld, -, -, -⟩ := setSlot_frame s sh sl
  have hst : isPending (slotOf (setSlot s sh sl) sh).st = true := by rw [slotOf_setSlot_same, hnew]
  refine h.update sh (by rwa [slotOf_setSlot_same]) (fun _ => slotOf_setSlot_other s sl) (horder ▸ h.nodup) ?_
    (fun _ _ => by rw [horder]) (fun g hg => ⟨hheld ▸ hg, fun _ => hst⟩)
  rw [horder, h.order, hold, hst]

/-- The end of a request, also of one whose idle counter has just gone beyond the timeout (R236, R241, R246, R249). -/
theorem MatcherInv.after_resolve_counted {s : State} (h : MatcherInv s) {sh : Shape} {r : ResultRecord}
    (hr : recordOk sh r) (n : BitVec 32) :
    MatcherInv (resolve sh r (setSlot s sh { slotOf s sh with idle := n })) := by
  obtain ⟨horder, -, -, -, -, hheld, -, -, -⟩ := setSlot_frame s sh { slotOf s sh with idle := n }
  obtain ⟨hslot, hother, ho, -, -, hh, -⟩ := resolve_spec sh r (setSlot s sh { slotOf s sh with idle := n })
  rw [slotOf_setSlot_same] at hslot
  rw [horder] at ho
  rw [hheld] at hh
  refine h.update sh (hslot ▸ slotInv_ended (h.slots sh) hr n)
    (fun sh' he => (hother sh' he).trans (slotOf_setSlot_other s _ he)) (ho ▸ h.nodup.filter _) ?_ ?_ ?_
  · simp [ho, hslot, isPending_outcomeState]
  · intro sh' he
    simp [ho, he]
  · intro g hg
    simp only [hh, List.mem_filter, decide_eq_true_eq] at hg
    exact ⟨hg.1, fun he => absurd he hg.2⟩

theorem setSlot_slotOf (s : State) (sh : Shape) : setSlot s sh (slotOf s sh) = s := by cases sh <;> rfl

theorem MatcherInv.after_resolve {s : State} (h : MatcherInv s) {sh : Shape} {r : ResultRecord} (hr : recordOk sh r) :
    MatcherInv (resolve sh r s) := by
  have hended := h.after_resolve_counted hr (slotOf s sh).idle
  rwa [setSlot_slotOf] at hended

theorem MatcherInv.after_registerRequest {s : State} (h : MatcherInv s) {sh : Shape} {req : Request} {tmo : Timeout}
    (hreq : RequestFits req tmo.has tmo.ticks) (hfree : isPending (slotOf s sh).st = false) (f : Frame) :
    MatcherInv (registerRequest sh req tmo f s) := by
  obtain ⟨hslot, hother, horder, -, -, -, -, hheld, -⟩ := registerRequest_spec sh req tmo f s
  have hnotin : sh ∉ s.order := by rw [h.order, hfree]; decide
  refine h.update sh (hslot ▸ slotInv_sent sh hreq) hother ?_ ?_ ?_ ?_
  · rw [horder, List.nodup_append]
    refine ⟨h.nodup, List.nodup_singleton sh, ?_⟩
    rintro a ha b hb rfl
    exact hnotin (List.mem_singleton.1 hb ▸ ha)
  · simp [horder, hslot, isPending]
  · intro sh' he
    simp [horder, he]
  · intro g hg
    exact ⟨hheld ▸ hg, fun _ => by rw [hslot]; rfl⟩

theorem MatcherInv.after_holdGet {s : State} (h : MatcherInv s) {sh : Shape} (hp : isPending (slotOf s sh).st = true) :
    MatcherInv (holdGet sh s) where
  slots sh' := by cases sh' <;> exact h.slots _
  nodup := h.nodup
  order sh' := by cases sh' <;> exact h.order _
  held g hg := by
    have hslot : ∀ sh', slotOf (holdGet sh s) sh' = slotOf s sh' := forall_shape.2 ⟨rfl, rfl⟩
    rw [hslot]
    rcases List.mem_append.1 hg with hg | hg
    · exact h.held g hg
    · obtain rfl := List.mem_singleton.1 hg
      exact hp

/-- Steps 5 to 8 of `EV.RX`, for a pending read and clean data (R235). -/
theorem MatcherInv.after_receiveChunk {s : State} (h : MatcherInv s) (hp : isPending s.slot0.st = true) (cap : Nat)
    {c : Chunk} (ha : validDigits 4 c.addr = true) (hd : c.data.all isData = true) (b : Byte) :
    MatcherInv (receiveChunk cap .read c b s) := by
  have hchunk (hin : chunkInSpace c = true) : chunkOk c = true := by simp [chunkOk, ha, hd, hin]
  rcases receiveChunk_cases cap .read c b s with
    ⟨-, he⟩ | ⟨-, he⟩ | ⟨-, -, he⟩ | ⟨hin, -, -, he⟩ | ⟨hin, -, -, he⟩ <;> rw [he]
  · exact h.after_resolve (recordOk_emptyResult .read (o := .checksumMismatch) nofun nofun)
  · exact h.congr (forall_shape.2 ⟨rfl, rfl⟩) rfl rfl
  · exact h.congr (forall_shape.2 ⟨rfl, rfl⟩) rfl rfl
  · refine h.after_resolve (recordOk_readResult (foldChunks_wf fun d hd => ?_))
    rcases List.mem_append.1 hd with hd | hd
    · exact chunkOk_inSpace ((h.slots .read).partials d hd)
    · exact List.mem_singleton.1 hd ▸ hin
  · rw [bufferPartial_spec]
    exact h.after_setSlot (slotInv_buffered (h.slots .read) hp (hchunk hin)) hp rfl

theorem MatcherInv.after_deliver {s : State} (h : MatcherInv s) (cap : Nat) {d : DeviceMessage} (hd : CleanDataSet d) :
    MatcherInv (deliver cap d s) := by
  rcases deliver_cases cap d s with ⟨dev, addr, data, b, rfl, hmem, he⟩ | ⟨r, -, -, he⟩ | he <;> rw [he]
  · obtain ⟨ha, hdata⟩ := hd _ _ _ _ rfl
    exact h.after_receiveChunk ((h.order .read).1 hmem) cap ha hdata b
  · exact h.after_resolve (recordOk_identResult r)
  · exact h.congr (forall_shape.2 ⟨rfl, rfl⟩) rfl rfl

/-- A pending slot with partials is slot 0, and their fold is canonical, so it may be salvaged (R246, R250). -/
theorem recordOk_salvaged_partials {s : State} (h : MatcherInv s) {sh : Shape}
    (hp : isPending (slotOf s sh).st = true) (hne : (slotOf s sh).partials ≠ []) :
    recordOk sh (salvagedResult (foldChunks (slotOf s sh).partials)) := by
  cases sh with
  | read =>
    exact recordOk_salvagedResult (foldChunks_wf fun d hd => chunkOk_inSpace ((h.slots .read).partials d hd))
  | ident =>
    have hshape := (h.slots .ident).shape
    simp only [shapeSlotOk, identSlotOk, Bool.and_eq_true, decide_eq_true_eq] at hshape
    exact absurd ((stateOk_pending (h.slots .ident).state hp).2 hshape.1.1) hne

theorem MatcherInv.after_tickSlot {s : State} (h : MatcherInv s) (sh : Shape) : MatcherInv (tickSlot sh s) := by
  rcases tickSlot_cases sh s with ⟨-, he⟩ | ⟨hp, hle, he⟩ | ⟨hp, -, he⟩ <;> rw [he]
  · exact h
  · have hpend := (Bool.and_eq_true_iff.1 hp).1
    exact h.after_setSlot (slotInv_counted (h.slots sh) hle) hpend hpend
  · have hpend := (Bool.and_eq_true_iff.1 hp).1
    obtain ⟨r, hr, hrec⟩ := expire_eq sh (setSlot s sh { slotOf s sh with idle := idleNext (slotOf s sh).idle })
    rw [slotOf_setSlot_same] at hrec
    rw [hr]
    rcases hrec with rfl | ⟨hne, rfl⟩
    · exact h.after_resolve_counted (recordOk_emptyResult sh (o := .timeoutError) nofun nofun) _
    · exact h.after_resolve_counted (recordOk_salvaged_partials h hpend hne) _

theorem timeoutOk_iff (tmo : Timeout) : timeoutOk tmo = true ↔ (tmo.has = true → tmo.ticks.toNat ≤ 2 ^ 32 - 2) := by
  cases hh : tmo.has <;> simp [timeoutOk, hh]

theorem EventEffect.matcherInv {s t : State} (heff : EventEffect s t) (h : MatcherInv s) : MatcherInv t := by
  cases heff with
  | responded | raised | sent | rejected => exact h.congr (forall_shape.2 ⟨rfl, rfl⟩) rfl rfl
  | readRegistered r req tmo f ha hb hreg ht hfree =>
    have hfits : RequestFits req tmo.has tmo.ticks := ⟨ha, hb, hreg, (timeoutOk_iff tmo).1 ht⟩
    exact (h.after_registerRequest (sh := .read) hfits hfree f).congr (forall_shape.2 ⟨rfl, rfl⟩) rfl rfl
  | identRegistered r dev tmo f ht hfree =>
    obtain ⟨⟨ha, hb, hreg, -⟩, -⟩ := (requestOk_iff _).1 (h.slots .ident).request
    have hfits : RequestFits { s.slot1.req with dev := dev } tmo.has tmo.ticks :=
      ⟨ha, hb, hreg, (timeoutOk_iff tmo).1 ht⟩
    exact (h.after_registerRequest (sh := .ident) hfits hfree f).congr (forall_shape.2 ⟨rfl, rfl⟩) rfl rfl
  | held sh hp => exact h.after_holdGet hp
  | got sh r =>
    obtain ⟨⟨h0, h1, ho, -⟩, hheld, -⟩ := answerGet_spec s.issued r s
    exact h.congr (forall_shape.2 ⟨h0, h1⟩) ho hheld
  | cancelled r sh =>
    have hended := h.after_resolve (recordOk_emptyResult sh (o := .cancelledError) nofun nofun)
    exact hended.congr (forall_shape.2 ⟨rfl, rfl⟩) rfl rfl
  | delivered d hd => exact h.after_deliver _ hd
  | ticked => exact (h.after_tickSlot .read).after_tickSlot .ident

/-- The reset input brings the invariant about, whatever was in progress (R33, R45, R290). -/
theorem inv_applyReset (s : State) : inv (applyReset s) = true := by
  have hreset : inv State.reset = true := by decide
  exact hreset

theorem inv_congr {s t : State} (h : inv s = true) (hslot : ∀ sh, slotOf t sh = slotOf s sh)
    (horder : t.order = s.order) (hheld : t.held = s.held) (hfsr : t.fsr = s.fsr) : inv t = true := by
  obtain ⟨hm, hf⟩ := (inv_iff s).1 h
  exact (inv_iff t).2 ⟨hm.congr hslot horder hheld, hfsr ▸ hf⟩

/-- Settles O51, by the input the step takes: each effect of an event keeps the matcher's part, and FSR never gains bit
0. -/
theorem slotInvariantsKeptByStep : Obligations.SlotInvariantsKeptByStep := by
  intro s t h hstep
  cases step_effect hstep with
  | idle => exact h
  | event e rest _ _ heff =>
    obtain ⟨hm, hf⟩ := (inv_iff s).1 h
    have hm' : MatcherInv (withInputs rest s) := hm.congr (forall_shape.2 ⟨rfl, rfl⟩) rfl rfl
    exact (inv_iff t).2 ⟨heff.matcherInv hm', heff.fsrGrows.zero hf⟩
  | resetInput rest => exact inv_applyReset _
  | takeTx rest | takeNotification rest | takeResponse rest =>
    exact inv_congr h (forall_shape.2 ⟨rfl, rfl⟩) rfl rfl rfl

/-- Settles O50: the invariant by evaluation, and both slots hold the empty map. -/
theorem slotInvariantsHoldAtReset : Obligations.SlotInvariantsHoldAtReset :=
  ⟨inv_applyReset State.reset, by simp [withinCapacity, State.reset, Slot.reset, foldChunks]⟩

theorem asAfterReset_applyReset (s : State) : asAfterReset (applyReset s) :=
  ⟨forall_shape.2 ⟨⟨rfl, rfl, rfl, rfl, rfl⟩, rfl, rfl, rfl, rfl, rfl⟩, rfl, rfl, rfl, rfl, rfl⟩

/-- Settles O49: `State.reset` is `applyReset` of itself, so one lemma speaks for both. -/
theorem resetLeavesEverythingEmpty : Obligations.ResetLeavesEverythingEmpty :=
  ⟨asAfterReset_applyReset State.reset, rfl, fun _ _ hin =>
    ⟨_, step_resetInput hin, asAfterReset_applyReset _, rfl, rfl, rfl, rfl⟩⟩

/-- Settles O1, by the two equations of `step`. -/
theorem stepRunsDecodedInstruction : Obligations.StepRunsDecodedInstruction :=
  fun _ => ⟨step_idle, fun _ _ _ hin hd => step_decoded hin hd⟩

/-! ### Nothing but `SR.READ` looks at FSR (R41) -/

/-- The state with another FSR. -/
def withFsr (f : BitVec 12) (s : State) : State := { s with fsr := f }

@[simp] theorem slotOf_withFsr (f : BitVec 12) (s : State) (sh : Shape) : slotOf (withFsr f s) sh = slotOf s sh := by
  cases sh <;> rfl

/-- From a state with another FSR the operation leads to the same state, up to FSR. -/
def FsrBlind (op : State → State) : Prop := ∀ s f, ∃ g, op (withFsr f s) = withFsr g (op s)

theorem FsrBlind.comp {op op' : State → State} (h : FsrBlind op) (h' : FsrBlind op') :
    FsrBlind fun s => op' (op s) := by
  intro s f
  obtain ⟨g, hg⟩ := h s f
  obtain ⟨g', hg'⟩ := h' (op s) g
  exact ⟨g', (congrArg op' hg).trans hg'⟩

theorem fsrBlind_id : FsrBlind id := fun _ f => ⟨f, rfl⟩

theorem fsrBlind_emitTx (x : Frame) : FsrBlind (emitTx x) := fun _ f => ⟨f, rfl⟩

theorem fsrBlind_notify (n : Notification) : FsrBlind (notify n) := fun _ f => ⟨f, rfl⟩

theorem fsrBlind_respond (r : ResultSlots) : FsrBlind (respond r) := fun _ f => ⟨f, rfl⟩

theorem fsrBlind_raiseFault (k : FaultKind) : FsrBlind (raiseFault k) := fun _ f => ⟨fsrWith f (faultCode k), rfl⟩

theorem fsrBlind_rxError (k : FaultKind) : FsrBlind (rxError k) := fun _ f => ⟨fsrWith f (faultCode k), rfl⟩

theorem fsrBlind_holdGet (sh : Shape) : FsrBlind (holdGet sh) := fun _ f => ⟨f, rfl⟩

theorem fsrBlind_countCommand : FsrBlind countCommand := fun _ f => ⟨f, rfl⟩

theorem withFsr_setSlot (f : BitVec 12) (s : State) (sh : Shape) (sl : Slot) :
    setSlot (withFsr f s) sh sl = withFsr f (setSlot s sh sl) := by cases sh <;> rfl

theorem fsrBlind_registerRequest (sh : Shape) (req : Request) (tmo : Timeout) (x : Frame) :
    FsrBlind (registerRequest sh req tmo x) := fun _ f => ⟨f, by cases sh <;> rfl⟩

theorem fsrBlind_answerGet (tag : Nat) (r : ResultRecord) : FsrBlind (answerGet tag r) := by
  intro s f
  unfold answerGet
  cases outcomeFault r.outcome with
  | none => exact ⟨f, rfl⟩
  | some k => exact ⟨fsrWith f (faultCode k), rfl⟩

theorem fsrBlind_answerAll (r : ResultRecord) (hs : List HeldGet) :
    FsrBlind fun s => hs.foldl (fun t h => answerGet h.tag r t) s := by
  induction hs with
  | nil => exact fsrBlind_id
  | cons h hs ih => exact (fsrBlind_answerGet h.tag r).comp ih

theorem fsrBlind_releaseHeld (sh : Shape) (r : ResultRecord) : FsrBlind (releaseHeld sh r) := fun s f =>
  fsrBlind_answerAll r (s.held.filter fun h => h.slot = sh) { s with held := s.held.filter fun h => h.slot ≠ sh } f

theorem fsrBlind_settle (sh : Shape) (r : ResultRecord) : FsrBlind (settle sh r) := fun _ f =>
  ⟨fsrAfter f r.outcome, by cases sh <;> rfl⟩

theorem fsrBlind_resolve (sh : Shape) (r : ResultRecord) : FsrBlind (resolve sh r) :=
  (fsrBlind_settle sh r).comp (fsrBlind_releaseHeld sh r)

theorem fsrBlind_bufferPartial (sh : Shape) (c : Chunk) : FsrBlind (bufferPartial sh c) := fun _ f =>
  ⟨f, by cases sh <;> rfl⟩

theorem fsrBlind_receiveChunk (cap : Nat) (sh : Shape) (c : Chunk) (b : Byte) :
    FsrBlind (receiveChunk cap sh c b) := by
  intro s f
  unfold receiveChunk
  simp only [slotOf_withFsr]
  split_ifs
  · exact fsrBlind_resolve sh _ s f
  · exact fsrBlind_rxError _ s f
  · exact fsrBlind_rxError _ s f
  · exact fsrBlind_resolve sh _ s f
  · exact fsrBlind_bufferPartial sh c s f

theorem fsrBlind_deliver (cap : Nat) (d : DeviceMessage) : FsrBlind (deliver cap d) := by
  intro s f
  have hmatch : matchSlot d (withFsr f s) = matchSlot d s := rfl
  unfold deliver
  rw [hmatch]
  split
  · exact fsrBlind_receiveChunk cap _ _ _ s f
  · exact fsrBlind_resolve _ _ s f
  · exact fsrBlind_notify _ s f

theorem fsrBlind_receiveMessage (cap : Nat) (m : MidiMessage) : FsrBlind (receiveMessage cap m) := by
  intro s f
  unfold receiveMessage
  split
  · exact fsrBlind_rxError _ s f
  · exact fsrBlind_deliver cap _ s f

theorem fsrBlind_receiveFrame (cap : Nat) (x : Frame) : FsrBlind (receiveFrame cap x) := by
  intro s f
  unfold receiveFrame
  split
  · exact fsrBlind_rxError _ s f
  · exact fsrBlind_receiveMessage cap _ s f

theorem fsrBlind_expire (sh : Shape) : FsrBlind (expire sh) := by
  intro s f
  unfold expire
  simp only [slotOf_withFsr]
  split_ifs
  · exact fsrBlind_resolve sh _ s f
  · exact fsrBlind_resolve sh _ s f

theorem fsrBlind_tickSlot (sh : Shape) : FsrBlind (tickSlot sh) := by
  intro s f
  unfold tickSlot
  simp only [slotOf_withFsr, withFsr_setSlot]
  split_ifs
  · exact fsrBlind_expire sh _ f
  · exact ⟨f, rfl⟩
  · exact ⟨f, rfl⟩

/-- From a state with another FSR the meaning answers with the same next state, up to FSR. -/
def FsrBlindMeaning (ex : State → Answer) : Prop :=
  ∀ s t f, ex s = .next t → ∃ g, ex (withFsr f s) = .next (withFsr g t)

theorem FsrBlind.meaning {op : State → State} {ex : State → Answer} (h : FsrBlind op)
    (hex : ∀ s, ex s = .next (op s)) : FsrBlindMeaning ex := by
  intro s t f ht
  obtain ⟨g, hg⟩ := h s f
  cases (hex s).symm.trans ht
  exact ⟨g, by rw [hex, hg]⟩

theorem fsrBlind_answer (r : Except FaultKind ResultSlots) : FsrBlindMeaning (answer r) := by
  cases r with
  | ok slots => exact (fsrBlind_respond slots).meaning fun _ => rfl
  | error k => exact (fsrBlind_raiseFault k).meaning fun _ => rfl

theorem fsrBlind_execRqSendu (msg : MidiMessage) : FsrBlindMeaning (execRqSendu msg) := by
  cases he : encodeChecked msg with
  | error k => exact (fsrBlind_raiseFault k).meaning fun _ => by simp [execRqSendu, he]
  | ok x => exact ((fsrBlind_emitTx x).comp (fsrBlind_respond {})).meaning fun _ => by simp [execRqSendu, he]

/-- One arm of a meaning, in a state where both runs take it. -/
theorem FsrBlind.arm {op : State → State} (h : FsrBlind op) {s t : State} (f : BitVec 12)
    (ht : (.next (op s) : Answer) = .next t) : ∃ g, (.next (op (withFsr f s)) : Answer) = .next (withFsr g t) := by
  obtain ⟨g, hg⟩ := h s f
  cases ht
  exact ⟨g, by rw [hg]⟩

theorem fsrBlind_execRqSendrRead (dev : Byte) (a b : Digits) (tmo : Timeout) :
    FsrBlindMeaning (execRqSendrRead dev a b tmo) := by
  intro s t f h
  unfold execRqSendrRead at h ⊢
  have hst : (withFsr f s).slot0.st = s.slot0.st := rfl
  rw [hst]
  split_ifs at h ⊢
  case neg => exact ((fsrBlind_registerRequest _ _ _ _).comp (fsrBlind_respond _)).arm f h
  all_goals exact (fsrBlind_raiseFault _).arm f h

theorem fsrBlind_execRqSendrIdent (dev : Byte) (tmo : Timeout) : FsrBlindMeaning (execRqSendrIdent dev tmo) := by
  intro s t f h
  unfold execRqSendrIdent at h ⊢
  have hslot : (withFsr f s).slot1 = s.slot1 := rfl
  rw [hslot]
  split_ifs at h ⊢
  case neg => exact ((fsrBlind_registerRequest _ _ _ _).comp (fsrBlind_respond _)).arm f h
  all_goals exact (fsrBlind_raiseFault _).arm f h

theorem fsrBlind_execRqGet (b : BitVec 1) : FsrBlindMeaning (execRqGet b) := by
  intro s t f h
  unfold execRqGet at h ⊢
  simp only [slotOf_withFsr] at h ⊢
  split_ifs at h ⊢
  · exact (fsrBlind_raiseFault _).arm f h
  · exact (fsrBlind_holdGet _).arm f h
  · cases hr : (slotOf s (shapeOfHandle b)).result with
    | none => simp [hr] at h
    | some r =>
      simp only [hr] at h ⊢
      exact ((fsrBlind_answerGet s.issued r).comp fsrBlind_countCommand).arm f h

theorem fsrBlind_execRqCancel (b : BitVec 1) : FsrBlindMeaning (execRqCancel b) := by
  intro s t f h
  unfold execRqCancel at h ⊢
  simp only [slotOf_withFsr] at h ⊢
  split_ifs at h ⊢
  · exact (fsrBlind_raiseFault _).arm f h
  · exact ((fsrBlind_resolve _ _).comp (fsrBlind_respond _)).arm f h

/-- Every meaning but that of `SR.READ`, which copies FSR into its response (R40). -/
theorem fsrBlind_exec {i : Instr} (hi : ∀ n, i ≠ .srRead n) : FsrBlindMeaning (exec i) := by
  cases instr_form i with
  | computes _ r _ hexec => exact funext hexec ▸ fsrBlind_answer r
  | sendu msg hi => exact hi ▸ fsrBlind_execRqSendu msg
  | sendrRead dev a b tmo hi => exact hi ▸ fsrBlind_execRqSendrRead dev a b tmo
  | sendrIdent dev tmo hi => exact hi ▸ fsrBlind_execRqSendrIdent dev tmo
  | get b hi => exact hi ▸ fsrBlind_execRqGet b
  | cancel b hi => exact hi ▸ fsrBlind_execRqCancel b
  | status srn hsr => exact absurd hsr (hi srn)
  | message _ m _ hexec => exact (fsrBlind_receiveMessage _ m).meaning hexec
  | device _ d _ hexec => exact (fsrBlind_deliver _ d).meaning hexec
  | frame x hi => exact hi ▸ (fsrBlind_receiveFrame _ x).meaning fun _ => rfl
  | tick hi => exact hi ▸ ((fsrBlind_tickSlot .read).comp (fsrBlind_tickSlot .ident)).meaning fun _ => rfl

/-- Settles O56: every meaning but that of `SR.READ` is made of operations that do not look at FSR. -/
theorem earlierFaultsChangeNoResult : Obligations.EarlierFaultsChangeNoResult :=
  fun _ s t f hi h => fsrBlind_exec hi s t f h

end Sys2Proof.Machine

/-! PROOFS of family 20_memory.md: the reads and writes of the sparse byte map, then the bound on the keys a slot holds. -/

namespace Sys2Proof.Machine

/-! ### The sparse byte map (R55) -/

/-- The byte a run of writes leaves at a key is the one written there; a key outside the run keeps its own. -/
theorem Memory.read_writeFrom (m : Memory) (k : Nat) (data : List Byte) (j : Nat) :
    (m.writeFrom k data).read j = if k ≤ j ∧ j < k + data.length then data[j - k]? else m.read j := by
  induction data generalizing m k with
  | nil => rw [if_neg (by simp), Memory.writeFrom]
  | cons b bs ih =>
    rw [Memory.writeFrom, ih, List.length_cons]
    rcases lt_trichotomy j k with hlt | rfl | hgt
    · rw [if_neg (by omega), if_neg (by omega), Memory.read_write_other m b (by omega)]
    · rw [if_neg (by omega), if_pos (by omega), Memory.read_write_same, Nat.sub_self, List.getElem?_cons_zero]
    · have hsub : j - k = j - (k + 1) + 1 := by omega
      have hrange : (k + 1 ≤ j ∧ j < k + 1 + bs.length) ↔ (k ≤ j ∧ j < k + (bs.length + 1)) := by omega
      rw [hsub, List.getElem?_cons_succ, Memory.read_write_other m b (by omega)]
      simp only [hrange]

/-- `MapRead` of one byte more: the first byte and the rest are both present. -/
theorem mapRead_succ_eq_some {m : Memory} {k n : Nat} {b : Byte} {bs : List Byte} :
    mapRead m k (n + 1) = some (b :: bs) ↔ m.read k = some b ∧ mapRead m (k + 1) n = some bs := by
  simp only [mapRead]
  cases m.read k <;> cases mapRead m (k + 1) n <;> simp

theorem mapRead_length {m : Memory} {k n : Nat} {bs : List Byte} (h : mapRead m k n = some bs) : bs.length = n := by
  induction n generalizing k bs with
  | zero => cases h; rfl
  | succ n ih =>
    simp only [mapRead] at h
    split at h
    · rename_i hrest
      cases h
      rw [List.length_cons, ih hrest]
    · cases h

/-- `MapRead` answers a run of bytes exactly when each is present. -/
theorem mapRead_eq_some {m : Memory} {k n : Nat} {bs : List Byte} :
    mapRead m k n = some bs ↔ bs.length = n ∧ ∀ i, i < n → m.read (k + i) = bs[i]? := by
  induction bs generalizing k n with
  | nil =>
    refine ⟨fun h => ⟨mapRead_length h, ?_⟩, ?_⟩
    · rw [← mapRead_length h]
      exact nofun
    · rintro ⟨rfl, -⟩
      rfl
  | cons b bs ih =>
    cases n with
    | zero => simp [mapRead]
    | succ n =>
      have hkey : ∀ i, k + 1 + i = k + (i + 1) := fun i => by omega
      rw [mapRead_succ_eq_some, ih, Nat.forall_lt_succ_left, List.length_cons, Nat.add_right_cancel_iff]
      simp only [Nat.add_zero, List.getElem?_cons_zero, List.getElem?_cons_succ, hkey]
      exact and_left_comm

/-- The keys of a chunk are the addresses it covers. -/
theorem mem_chunkKeys {c : Chunk} {k : Nat} :
    k ∈ chunkKeys c ↔ toInt c.addr ≤ k ∧ k < toInt c.addr + c.data.length := by
  simp only [chunkKeys, List.mem_map, List.mem_range]
  constructor
  · rintro ⟨i, hi, rfl⟩
    omega
  · rintro ⟨hle, hlt⟩
    exact ⟨k - toInt c.addr, by omega, by omega⟩

/-- Settles O45: one law for each of the write, the canonical form, the read and the keys. -/
theorem mapPrimitives : Obligations.MapPrimitives := fun m a p =>
  ⟨Memory.read_writeFrom m (toInt a) p, Memory.wf_writeFrom, fun _ _ => mapRead_eq_some, fun _ => mem_chunkKeys⟩

/-! ### The keys a slot holds (R54, R242) -/

/-- What `withinCapacity` asks of one slot. -/
structure SlotFits (sl : Slot) : Prop where
  partials : (foldChunks sl.partials).length ≤ Config.mapCap
  result : ∀ r, sl.result = some r → r.map.length ≤ Config.mapCap

theorem withinCapacity_iff (s : State) : withinCapacity s ↔ ∀ sh, SlotFits (slotOf s sh) := by
  rw [forall_shape]
  exact ⟨fun ⟨p0, p1, r0, r1⟩ => ⟨⟨p0, r0⟩, p1, r1⟩, fun ⟨⟨p0, r0⟩, p1, r1⟩ => ⟨p0, p1, r0, r1⟩⟩

theorem foldChunks_nil : foldChunks [] = [] := rfl

/-- A slot without partials and without a result, as after reset or registration. -/
theorem slotFits_empty {sl : Slot} (hp : sl.partials = []) (hr : sl.result = none) : SlotFits sl where
  partials := by simp [hp, foldChunks_nil]
  result := by simp [hr]

/-- A slot whose request has ended holds the keys of its result alone. -/
theorem slotFits_ended {sl : Slot} {r : ResultRecord} (hp : sl.partials = []) (hr : sl.result = some r)
    (hcap : r.map.length ≤ Config.mapCap) : SlotFits sl where
  partials := by simp [hp, foldChunks_nil]
  result q hq := by cases hr.symm.trans hq; exact hcap

theorem withinCapacity_applyReset (s : State) : withinCapacity (applyReset s) :=
  (withinCapacity_iff _).2 (forall_shape.2 ⟨slotFits_empty rfl rfl, slotFits_empty rfl rfl⟩)

/-! ### Operations that keep the bound -/

section Capacity

variable {s t : State}

/-- An operation that touches no slot. -/
theorem withinCapacity_congr (h : withinCapacity s) (hslot : ∀ sh, slotOf t sh = slotOf s sh) : withinCapacity t :=
  (withinCapacity_iff t).2 fun sh => hslot sh ▸ (withinCapacity_iff s).1 h sh

/-- An operation that rewrites one slot. -/
theorem withinCapacity_update (h : withinCapacity s) (sh : Shape) (hslot : SlotFits (slotOf t sh))
    (hother : ∀ sh', sh' ≠ sh → slotOf t sh' = slotOf s sh') : withinCapacity t := by
  refine (withinCapacity_iff t).2 fun sh' => ?_
  by_cases he : sh' = sh
  · exact he ▸ hslot
  · exact hother sh' he ▸ (withinCapacity_iff s).1 h sh'

theorem withinCapacity_setSlot (h : withinCapacity s) (sh : Shape) {sl : Slot} (hsl : SlotFits sl) :
    withinCapacity (setSlot s sh sl) :=
  withinCapacity_update h sh (by rwa [slotOf_setSlot_same]) fun _ => slotOf_setSlot_other s sl

/-- The end of a request, with a result within the bound (R236, R241, R246, R249). -/
theorem withinCapacity_resolve (h : withinCapacity s) (sh : Shape) {r : ResultRecord}
    (hr : r.map.length ≤ Config.mapCap) : withinCapacity (resolve sh r s) := by
  obtain ⟨hslot, hother, -⟩ := resolve_spec sh r s
  exact withinCapacity_update h sh (slotFits_ended (r := r) (by rw [hslot]) (by rw [hslot]) hr) hother

/-- A new request empties its slot (R224, R225). -/
theorem withinCapacity_registerRequest (h : withinCapacity s) (sh : Shape) (req : Request) (tmo : Timeout) (f : Frame) :
    withinCapacity (registerRequest sh req tmo f s) := by
  obtain ⟨hslot, hother, -⟩ := registerRequest_spec sh req tmo f s
  exact withinCapacity_update h sh (slotFits_empty (by rw [hslot]) (by rw [hslot])) hother

/-- A chunk is buffered or completes the read only after its fold with the partials was held against `MAP_CAP` (R235 step 7,
R242). -/
theorem withinCapacity_receiveChunk (h : withinCapacity s) (sh : Shape) (c : Chunk) (b : Byte) :
    withinCapacity (receiveChunk Config.mapCap sh c b s) := by
  rcases receiveChunk_cases Config.mapCap sh c b s with
    ⟨-, he⟩ | ⟨-, he⟩ | ⟨-, -, he⟩ | ⟨-, hcap, -, he⟩ | ⟨-, hcap, -, he⟩ <;> rw [he]
  · exact withinCapacity_resolve h sh (Nat.zero_le _)
  · exact withinCapacity_congr h (forall_shape.2 ⟨rfl, rfl⟩)
  · exact withinCapacity_congr h (forall_shape.2 ⟨rfl, rfl⟩)
  · exact withinCapacity_resolve h sh hcap
  · rw [bufferPartial_spec]
    exact withinCapacity_setSlot h sh ⟨hcap, ((withinCapacity_iff s).1 h sh).result⟩

theorem withinCapacity_deliver (h : withinCapacity s) (d : DeviceMessage) :
    withinCapacity (deliver Config.mapCap d s) := by
  rcases deliver_cases Config.mapCap d s with ⟨_, addr, data, b, -, -, he⟩ | ⟨r, -, -, he⟩ | he <;> rw [he]
  · exact withinCapacity_receiveChunk h .read ⟨addr, data⟩ b
  · exact withinCapacity_resolve h .ident (Nat.zero_le _)
  · exact withinCapacity_congr h (forall_shape.2 ⟨rfl, rfl⟩)

/-- An expiring slot is salvaged with the fold of the partials it held (R246). -/
theorem withinCapacity_expire (h : withinCapacity s) (sh : Shape) : withinCapacity (expire sh s) := by
  obtain ⟨r, he, hr⟩ := expire_eq sh s
  rw [he]
  rcases hr with rfl | ⟨-, rfl⟩
  · exact withinCapacity_resolve h sh (Nat.zero_le _)
  · exact withinCapacity_resolve h sh ((withinCapacity_iff s).1 h sh).partials

theorem withinCapacity_tickSlot (h : withinCapacity s) (sh : Shape) : withinCapacity (tickSlot sh s) := by
  obtain ⟨hp, hr⟩ := (withinCapacity_iff s).1 h sh
  have hcounted : withinCapacity (setSlot s sh { slotOf s sh with idle := idleNext (slotOf s sh).idle }) :=
    withinCapacity_setSlot h sh ⟨hp, hr⟩
  rcases tickSlot_cases sh s with ⟨-, he⟩ | ⟨-, -, he⟩ | ⟨-, -, he⟩ <;> rw [he]
  · exact h
  · exact hcounted
  · exact withinCapacity_expire hcounted sh

theorem EventEffect.keepsCapacity (heff : EventEffect s t) (h : withinCapacity s) : withinCapacity t := by
  cases heff with
  | responded | raised | sent | held | rejected => exact withinCapacity_congr h (forall_shape.2 ⟨rfl, rfl⟩)
  | readRegistered r req tmo f =>
    exact withinCapacity_congr (withinCapacity_registerRequest h .read req tmo f) (forall_shape.2 ⟨rfl, rfl⟩)
  | identRegistered r dev tmo f =>
    exact withinCapacity_congr (withinCapacity_registerRequest h .ident _ tmo f) (forall_shape.2 ⟨rfl, rfl⟩)
  | got sh r =>
    obtain ⟨⟨h0, h1, -⟩, -⟩ := answerGet_spec s.issued r s
    exact withinCapacity_congr h (forall_shape.2 ⟨h0, h1⟩)
  | cancelled r sh =>
    have hended := withinCapacity_resolve h sh (r := emptyResult .cancelledError) (Nat.zero_le _)
    exact withinCapacity_congr hended (forall_shape.2 ⟨rfl, rfl⟩)
  | delivered d => exact withinCapacity_deliver h d
  | ticked => exact withinCapacity_tickSlot (withinCapacity_tickSlot h .read) .ident

end Capacity

/-- Settles O52, by the input the step takes: an event keeps the bound, the reset input empties both slots, and the ports
touch none. -/
theorem mapCapacityKeptByStep : Obligations.MapCapacityKeptByStep := by
  intro s t h hstep
  cases step_effect hstep with
  | idle => exact h
  | event e rest _ _ heff => exact heff.keepsCapacity (withinCapacity_congr h (forall_shape.2 ⟨rfl, rfl⟩))
  | resetInput rest => exact withinCapacity_applyReset _
  | takeTx rest | takeNotification rest | takeResponse rest =>
    exact withinCapacity_congr h (forall_shape.2 ⟨rfl, rfl⟩)

end Sys2Proof.Machine

/-! PROOFS of family 30_encoding.md: frames and messages stand for each other, messages and wire rows stand for each
other, and a command stands for its operation; then the statements of this family. -/

namespace Sys2Proof.Machine

/-! ### Bytes and data bytes -/

theorem isData_iff (b : Byte) : isData b = true ↔ b.toNat < 128 := by simp [isData]

@[simp] theorem byteOf_toNat (b : Byte) : byteOf b.toNat = b := by simp [byteOf]

theorem toNat_byteOf {n : Nat} (h : n < 256) : (byteOf n).toNat = n := by
  simp [byteOf, Nat.mod_eq_of_lt h]

theorem isData_byteOf {n : Nat} (h : n < 128) : isData (byteOf n) = true := by
  rw [isData_iff, toNat_byteOf (by omega)]
  exact h

theorem data1_byteOf {n : Nat} (h : n < 128) : data1 [byteOf n] = .ok n := by
  simp [data1, isData_byteOf h, toNat_byteOf (show n < 256 by omega)]

theorem data2_byteOf {m n : Nat} (hm : m < 128) (hn : n < 128) : data2 [byteOf m, byteOf n] = .ok (m, n) := by
  simp [data2, isData_byteOf, toNat_byteOf (show m < 256 by omega), toNat_byteOf (show n < 256 by omega), hm, hn]

theorem data0_bytes (ds : List Byte) : Yields (fun _ => ds = []) (data0 ds) := by
  cases ds with
  | nil => exact yields_ok.2 rfl
  | cons => exact yields_error _ _

theorem data1_bytes (ds : List Byte) : Yields (fun n => n < 128 ∧ ds = [byteOf n]) (data1 ds) := by
  refine fun n hn => ⟨data1_lt ds n hn, ?_⟩
  unfold data1 at hn
  split at hn
  case h_2 d =>
    split at hn <;> cases hn
    simp
  all_goals cases hn

theorem data2_bytes (ds : List Byte) :
    Yields (fun p => (p.1 < 128 ∧ p.2 < 128) ∧ ds = [byteOf p.1, byteOf p.2]) (data2 ds) := by
  refine fun p hp => ⟨data2_lt ds p hp, ?_⟩
  unfold data2 at hp
  split at hp
  case h_3 d e =>
    split at hp <;> cases hp
    simp
  all_goals cases hp

/-! ### A message is decoded from its frame -/

/-- The status byte `kkkknnnn` sends the decoder to its kind's arm with its channel (R75, R81). -/
theorem decodeFrame_statusByte {kind c : Nat} (hkind : 8 ≤ kind ∧ kind ≤ 14) (hc : c < 16) (ds : List Byte) :
    decodeFrame (statusByte kind c :: ds) = decodeChannelVoice kind c ds := by
  have hb : (statusByte kind c).toNat = 16 * kind + c := toNat_byteOf (by omega)
  have hdiv : (16 * kind + c) / 16 = kind := by omega
  have hmod : (16 * kind + c) % 16 = c := by omega
  simp only [decodeFrame, hb, hdiv, hmod]
  rw [if_neg (by omega), if_pos (by omega)]

theorem decodeFrame_timeCode (ds : List Byte) :
    decodeFrame (0xF1 :: ds) = (data1 ds).map fun d => .timeCode (d / 16) (d % 16) := rfl

theorem decodeFrame_songPosition (ds : List Byte) :
    decodeFrame (0xF2 :: ds) = (data2 ds).map fun p => .songPositionPointer (pair14 p) := rfl

theorem decodeFrame_songSelect (ds : List Byte) :
    decodeFrame (0xF3 :: ds) = (data1 ds).map fun d => .songSelect d := rfl

/-- The checks of a SysEx frame pass on clean bytes between `F0` and `F7` (R190). -/
theorem decodeFrame_sysEx {body : List Byte} (hne : body ≠ []) (hclean : body.all isData = true) :
    decodeFrame (0xF0 :: (body ++ [0xF7])) = decodeSysExBody body := by
  have hlen : 1 ≤ body.length := List.length_pos_iff.2 hne
  have hcheck : decodeFrame (0xF0 :: (body ++ [0xF7])) = decodeSysEx (body ++ [0xF7]) := rfl
  rw [hcheck, decodeSysEx, if_neg (by simp; omega), if_neg (by simp), List.dropLast_concat, if_neg (by simp [hclean])]

/-- The two forms of a manufacturer ID are told apart by its first byte (R194). -/
theorem decodeSysExBody_manufacturer {id : List Byte} (h : manufacturerIdOk id = true) (payload : List Byte) :
    decodeSysExBody (id ++ payload) = .ok (.sysExManufacturer id payload) := by
  unfold manufacturerIdOk at h
  split at h
  case h_1 b =>
    simp only [Bool.and_eq_true, decide_eq_true_eq] at h
    simp only [decodeSysExBody, List.cons_append, List.nil_append]
    split
    case h_7 => rfl
    all_goals omega
  case h_2 b b1 b2 =>
    simp only [Bool.and_eq_true, decide_eq_true_eq] at h
    obtain ⟨⟨hb, -⟩, -⟩ := h
    simp only [decodeSysExBody, List.cons_append, List.nil_append, hb]
  case h_3 => cases h

theorem manufacturerIdOk_clean {id : List Byte} (h : manufacturerIdOk id = true) : id ≠ [] ∧ id.all isData = true := by
  unfold manufacturerIdOk at h
  split at h
  case h_1 b =>
    simp only [Bool.and_eq_true, decide_eq_true_eq] at h
    simp only [List.all_cons, List.all_nil, Bool.and_true, isData_iff]
    exact ⟨nofun, by omega⟩
  case h_2 b b1 b2 =>
    simp only [Bool.and_eq_true, decide_eq_true_eq] at h
    obtain ⟨⟨hb, h1⟩, h2⟩ := h
    exact ⟨nofun, by simp [isData_iff b, hb, h1, h2]⟩
  case h_3 => cases h

theorem channelModeController_range (kind : ChannelModeKind) :
    120 ≤ channelModeController kind ∧ channelModeController kind < 128 := by
  cases kind <;> decide

theorem channelModeKind_controller (kind : ChannelModeKind) : channelModeKind (channelModeController kind) = kind := by
  cases kind <;> rfl

theorem channelModeController_kind {n : Nat} (h : 120 ≤ n ∧ n < 128) :
    channelModeController (channelModeKind n) = n := by
  obtain ⟨hlo, hhi⟩ := h
  interval_cases n <;> rfl

/-- Decoding the frame of a message that meets its invariants gives the message (R152, R153, R180). -/
theorem decodeFrame_encodeMessage {m : MidiMessage} (hm : messageValid m = true) :
    decodeFrame (encodeMessage m) = .ok m := by
  cases m
  case channelMode c kind v =>
    simp only [messageValid, Bool.and_eq_true, decide_eq_true_eq] at hm
    have hn := channelModeController_range kind
    simp [encodeMessage, decodeFrame_statusByte, decodeChannelVoice, data2_byteOf, Except.map, hm, hn,
      channelModeKind_controller]
  case pitchBend c b =>
    simp only [messageValid, Bool.and_eq_true, decide_eq_true_eq] at hm
    rw [encodeMessage, decodeFrame_statusByte (by decide) (by omega), decodeChannelVoice,
      data2_byteOf (by omega) (by omega), Except.map, pair14]
    congr 2
    omega
  case timeCode t v =>
    simp only [messageValid, Bool.and_eq_true, decide_eq_true_eq] at hm
    have hdiv : (16 * t + v) / 16 = t := by omega
    have hmod : (16 * t + v) % 16 = v := by omega
    rw [encodeMessage, decodeFrame_timeCode, data1_byteOf (by omega), Except.map, hdiv, hmod]
  case songPositionPointer p =>
    simp only [messageValid, decide_eq_true_eq] at hm
    rw [encodeMessage, decodeFrame_songPosition, data2_byteOf (by omega) (by omega), Except.map, pair14,
      Nat.div_add_mod']
  case songSelect n =>
    simp only [messageValid, decide_eq_true_eq] at hm
    rw [encodeMessage, decodeFrame_songSelect, data1_byteOf hm, Except.map]
  case sysExUniversalRealtime dev p =>
    have hbody : (0x7F :: dev :: p).all isData = true := by simpa [messageValid, isData] using hm
    exact decodeFrame_sysEx nofun hbody
  case sysExUniversalNonRealtime dev p =>
    have hbody : (0x7E :: dev :: p).all isData = true := by simpa [messageValid, isData] using hm
    exact decodeFrame_sysEx nofun hbody
  case sysExManufacturer id p =>
    simp only [messageValid, Bool.and_eq_true] at hm
    obtain ⟨hid, hp⟩ := hm
    obtain ⟨hne, hclean⟩ := manufacturerIdOk_clean hid
    have hbody : (id ++ p).all isData = true := by simp only [List.all_append, hclean, hp, Bool.and_self]
    have hne' : id ++ p ≠ [] := List.append_ne_nil_of_left_ne_nil hne p
    simpa [encodeMessage, decodeSysExBody_manufacturer hid] using decodeFrame_sysEx hne' hbody
  case controlChange c n v =>
    simp only [messageValid, Bool.and_eq_true, decide_eq_true_eq] at hm
    have hn : n < 128 := by omega
    simp [encodeMessage, decodeFrame_statusByte, decodeChannelVoice, data2_byteOf, Except.map, hm, hn]
  case noteOff | noteOn | polyKeyPressure | programChange | channelPressure =>
    simp only [messageValid, Bool.and_eq_true, decide_eq_true_eq] at hm
    simp [encodeMessage, decodeFrame_statusByte, decodeChannelVoice, data1_byteOf, data2_byteOf, Except.map, hm]
  all_goals rfl

/-! ### A frame is the frame of the message decoded from it -/

theorem pair14_mod {lo : Nat} (h : lo < 128) (hi : Nat) : pair14 (lo, hi) % 128 = lo := by
  simp only [pair14]
  omega

theorem pair14_div {lo : Nat} (h : lo < 128) (hi : Nat) : pair14 (lo, hi) / 128 = hi := by
  simp only [pair14]
  omega

theorem encodeMessage_decodeChannelVoice (kind channel : Nat) (ds : List Byte) :
    Yields (fun m => encodeMessage m = statusByte kind channel :: ds) (decodeChannelVoice kind channel ds) := by
  unfold decodeChannelVoice
  split
  case h_4 =>
    refine (data2_bytes ds).map ?_
    rintro ⟨n, v⟩ ⟨⟨hn, -⟩, rfl⟩
    split
    case isTrue => rfl
    case isFalse hmode => rw [encodeMessage, channelModeController_kind ⟨by omega, hn⟩]
  case h_5 | h_6 =>
    refine (data1_bytes ds).map ?_
    rintro d ⟨-, rfl⟩
    rfl
  case h_7 =>
    refine (data2_bytes ds).map ?_
    rintro ⟨lo, hi⟩ ⟨⟨hlo, -⟩, rfl⟩
    have hu : ((pair14 (lo, hi) : Nat) - 8192 + 8192 : Int).toNat = pair14 (lo, hi) := by omega
    simp only [encodeMessage, hu, pair14_mod hlo hi, pair14_div hlo hi]
  case h_8 => exact yields_error _ _
  all_goals
    refine (data2_bytes ds).map ?_
    rintro ⟨k, v⟩ ⟨-, rfl⟩
    rfl

theorem encodeMessage_decodeSystem (b : Byte) (ds : List Byte) :
    Yields (fun m => encodeMessage m = b :: ds) (decodeSystem b.toNat ds) := by
  rw [← byteOf_toNat b, toNat_byteOf b.isLt]
  generalize b.toNat = st
  unfold decodeSystem
  split
  case h_1 =>
    refine (data1_bytes ds).map ?_
    rintro d ⟨-, rfl⟩
    simp only [encodeMessage, Nat.div_add_mod]
    rfl
  case h_2 =>
    refine (data2_bytes ds).map ?_
    rintro ⟨lo, hi⟩ ⟨⟨hlo, -⟩, rfl⟩
    simp only [encodeMessage, pair14_mod hlo hi, pair14_div hlo hi]
    rfl
  case h_3 =>
    refine (data1_bytes ds).map ?_
    rintro d ⟨-, rfl⟩
    rfl
  case h_11 => exact yields_error _ _
  all_goals
    refine (data0_bytes ds).map ?_
    rintro _ rfl
    rfl

theorem encodeMessage_decodeSysExBody (body : List Byte) :
    Yields (fun m => encodeMessage m = 0xF0 :: (body ++ [0xF7])) (decodeSysExBody body) := by
  unfold decodeSysExBody
  split
  · exact yields_error _ _
  · rename_i b rest
    split
    case h_1 h | h_3 h =>
      rw [← byteOf_toNat b, h]
      exact yields_ok.2 rfl
    case h_5 | h_7 => exact yields_ok.2 (by simp [encodeMessage])
    all_goals exact yields_error _ _

theorem encodeMessage_decodeSysEx (ds : List Byte) :
    Yields (fun m => encodeMessage m = 0xF0 :: ds) (decodeSysEx ds) := by
  unfold decodeSysEx
  split
  · exact yields_error _ _
  · split
    · exact yields_error _ _
    · rename_i hlast
      have hds : ds.dropLast ++ [0xF7] = ds :=
        List.dropLast_append_getLast? _ (Option.mem_def.2 (not_not.1 hlast))
      split
      · exact yields_error _ _
      · simpa only [hds] using encodeMessage_decodeSysExBody ds.dropLast

/-- A frame the decoder accepts is the frame of the message it answers (R180). -/
theorem encodeMessage_decodeFrame (f : Frame) : Yields (fun m => encodeMessage m = f) (decodeFrame f) := by
  cases f with
  | nil => exact yields_error _ _
  | cons b ds =>
    simp only [decodeFrame]
    split
    · exact yields_error _ _
    · split
      · have hb : statusByte (b.toNat / 16) (b.toNat % 16) = b := by
          rw [statusByte, Nat.div_add_mod, byteOf_toNat]
        simpa only [hb] using encodeMessage_decodeChannelVoice (b.toNat / 16) (b.toNat % 16) ds
      · split
        case isTrue hb =>
          obtain rfl : b = 0xF0 := BitVec.eq_of_toNat_eq hb
          exact encodeMessage_decodeSysEx ds
        case isFalse => exact encodeMessage_decodeSystem b ds

/-- Messages that meet their invariants and frames that decode stand for each other (R180). -/
theorem decodeFrame_eq_ok_iff (f : Frame) (m : MidiMessage) :
    decodeFrame f = .ok m ↔ messageValid m = true ∧ encodeMessage m = f :=
  ⟨fun h => ⟨decodeFrame_valid f m h, encodeMessage_decodeFrame f m h⟩,
   fun ⟨hm, hf⟩ => hf ▸ decodeFrame_encodeMessage hm⟩

/-! ### The frames that decode are the well-formed ones -/

@[simp] theorem isOk_ok {ε α : Type} (a : α) : (Except.ok a : Except ε α).isOk = true := rfl

@[simp] theorem isOk_error {ε α : Type} (e : ε) : (Except.error e : Except ε α).isOk = false := rfl

@[simp] theorem isOk_map {ε α β : Type} (f : α → β) (x : Except ε α) : (x.map f).isOk = x.isOk := by cases x <;> rfl

theorem isOk_iff {ε α : Type} (x : Except ε α) : x.isOk = true ↔ ∃ a, x = .ok a := by cases x <;> simp

theorem data0_isOk (ds : List Byte) : (data0 ds).isOk = decide (ds.length = 0) := by
  cases ds <;> rfl

theorem data1_isOk (ds : List Byte) : (data1 ds).isOk = (decide (ds.length = 1) && ds.all isData) := by
  match ds with
  | [] | _ :: _ :: _ => simp [data1]
  | [d] => cases hd : isData d <;> simp [data1, hd]

theorem data2_isOk (ds : List Byte) : (data2 ds).isOk = (decide (ds.length = 2) && ds.all isData) := by
  match ds with
  | [] | [_] | _ :: _ :: _ :: _ => simp [data2]
  | [d, e] => cases hd : isData d <;> cases he : isData e <;> simp [data2, hd, he]

/-- Of the channel-voice kinds, 0xC and 0xD have one data byte and the others two (R80). -/
theorem fixedLength_channelVoice {b : Nat} (h : 0x80 ≤ b ∧ b < 0xF0) :
    fixedLength b = if b / 16 = 0xC ∨ b / 16 = 0xD then 2 else 3 := by
  unfold fixedLength
  grind

theorem decodeChannelVoice_isOk {b : Nat} (h : 0x80 ≤ b ∧ b < 0xF0) (c : Nat) (ds : List Byte) :
    (decodeChannelVoice (b / 16) c ds).isOk = (decide (fixedLength b = ds.length + 1) && ds.all isData) := by
  rw [fixedLength_channelVoice h]
  have hkind : 8 ≤ b / 16 ∧ b / 16 ≤ 14 := by omega
  generalize b / 16 = kind at hkind ⊢
  obtain ⟨hlo, hhi⟩ := hkind
  interval_cases kind <;> simp [decodeChannelVoice, data1_isOk, data2_isOk, eq_comm]

theorem decodeSystem_isOk {b : Nat} (h : 0xF0 < b) (ds : List Byte) :
    (decodeSystem b ds).isOk = (decide (fixedLength b = ds.length + 1) && ds.all isData) := by
  unfold decodeSystem
  split
  case h_1 | h_2 | h_3 => simp [fixedLength, data1_isOk, data2_isOk, eq_comm]
  case h_11 =>
    have hnone : fixedLength b = 0 := by
      unfold fixedLength
      grind
    simp [hnone]
  all_goals cases ds <;> simp [fixedLength, data0_isOk]

/-- The length check of the interior is the header split of the decoder: both go by the first byte (R190, R191). -/
theorem sysExInteriorOk_eq (body : List Byte) :
    sysExInteriorOk body = (body.all isData && (decodeSysExBody body).isOk) := by
  unfold sysExInteriorOk decodeSysExBody
  congr 1
  cases body with
  | nil => rfl
  | cons b rest =>
    dsimp only
    split
    case isTrue h =>
      rcases h with h | h <;> cases rest <;> simp [h]
    case isFalse h =>
      split
      case isTrue h =>
        match rest with
        | [] | [_] | _ :: _ :: _ => simp [h]
      case isFalse h =>
        split <;> simp_all

theorem decodeSysEx_isOk (ds : List Byte) :
    (decodeSysEx ds).isOk = (decide (ds.getLast? = some 0xF7) && sysExInteriorOk ds.dropLast) := by
  unfold decodeSysEx
  split
  case isTrue hlen =>
    have hnil : ds.dropLast = [] := List.length_eq_zero_iff.1 (by rw [List.length_dropLast]; omega)
    rw [hnil, sysExInteriorOk_eq]
    simp [decodeSysExBody]
  case isFalse =>
    rw [sysExInteriorOk_eq]
    split
    case isTrue hlast => rw [decide_eq_false hlast]; rfl
    case isFalse hlast =>
      rw [decide_eq_true (not_not.1 hlast)]
      split <;> simp_all

/-- The decoder accepts exactly the frames of the wire formats (R84, R85). -/
theorem decodeFrame_isOk (f : Frame) : (decodeFrame f).isOk = frameWellFormed f := by
  cases f with
  | nil => rfl
  | cons b ds =>
    simp only [decodeFrame, frameWellFormed]
    split
    case isTrue hb =>
      rw [if_neg (by omega)]
      simp [fixedLength, hb]
    case isFalse =>
      split
      case isTrue =>
        rw [if_neg (by omega), decodeChannelVoice_isOk (by omega)]
      case isFalse =>
        split
        case isTrue => exact decodeSysEx_isOk ds
        case isFalse => exact decodeSystem_isOk (by omega) ds

/-! ### What the four device patterns narrow to (R206 to R209) -/

theorem getElem?_eq_some_byteAt {p : List Byte} {i : Nat} {b : Byte} :
    p[i]? = some b ↔ i < p.length ∧ byteAt p i = b := by
  by_cases hi : i < p.length <;> simp [byteAt, hi]

/-- The identity patterns, in the terms of the narrowing (R206, R207). -/
theorem isIdentityPayload_iff (p : List Byte) :
    isIdentityPayload p = true ↔
      p = [0x06, 0x01] ∨ (p.length = 11 ∧ byteAt p 0 = 0x06 ∧ byteAt p 1 = 0x02) := by
  simp only [isIdentityPayload, Bool.or_eq_true, Bool.and_eq_true, decide_eq_true_eq]
  refine or_congr_right (and_congr_right fun hlen => ?_)
  match p, hlen with
  | b0 :: b1 :: _, _ => simp [byteAt]

/-- The device patterns, in the terms of the narrowing (R208, R209). -/
theorem isDevicePayload_iff (id p : List Byte) :
    isDevicePayload id p = true ↔ (id = [Config.mfrId] ∧ slice p 1 3 = Config.modelId) ∧
      ((p.length = 14 ∧ byteAt p 4 = Config.cmdRq1) ∨ (10 ≤ p.length ∧ byteAt p 4 = Config.cmdDt1)) := by
  simp only [isDevicePayload, slice, Bool.or_eq_true, Bool.and_eq_true, decide_eq_true_eq, getElem?_eq_some_byteAt]
  exact and_congr_right fun _ => or_congr
    ⟨fun ⟨⟨_, hcmd⟩, hlen⟩ => ⟨hlen, hcmd⟩, fun ⟨hlen, hcmd⟩ => ⟨⟨by omega, hcmd⟩, hlen⟩⟩
    ⟨fun ⟨⟨_, hcmd⟩, hlen⟩ => ⟨hlen, hcmd⟩, fun ⟨hlen, hcmd⟩ => ⟨⟨by omega, hcmd⟩, hlen⟩⟩

theorem narrow_identityRequest (dev : Byte) : narrow (identityRequestMessage dev) = some (.identityRequest dev) := rfl

theorem narrow_identityReply (dev man : Byte) {family number rev : List Byte} (hf : family.length = 2)
    (hn : number.length = 2) (hr : rev.length = 4) :
    narrow (identityReplyMessage dev man family number rev) =
      some (.identityReply (mkIdentityReply dev man family number rev)) := by
  obtain ⟨f0, f1, rfl⟩ := List.length_eq_two.1 hf
  obtain ⟨n0, n1, rfl⟩ := List.length_eq_two.1 hn
  obtain ⟨r0, r1, r2, r3, rfl⟩ := List.length_eq_four.1 hr
  rfl

theorem narrow_readRequest (dev c : Byte) {a b : Digits} (ha : a.length = 4) (hb : b.length = 4) :
    narrow (readRequestMessage dev a b c) = some (.readRequest dev a b c) := by
  obtain ⟨a0, a1, a2, a3, rfl⟩ := List.length_eq_four.1 ha
  obtain ⟨b0, b1, b2, b3, rfl⟩ := List.length_eq_four.1 hb
  rfl

theorem narrow_dataSet (dev c : Byte) {a : Digits} (ha : a.length = 4) (data : List Byte) :
    narrow (dataSetMessage dev a data c) = some (.dataSet dev a data c) := by
  obtain ⟨a0, a1, a2, a3, rfl⟩ := List.length_eq_four.1 ha
  simp [narrow, dataSetMessage, narrowManufacturer, slice, byteAt, Config.modelId, Config.cmdDt1, Config.cmdRq1]

theorem narrowUniversal_eq_none (dev : Byte) {p : List Byte} (h : isIdentityPayload p = false) :
    narrowUniversal dev p = none := by
  rw [Bool.eq_false_iff, ne_eq, isIdentityPayload_iff, not_or] at h
  rw [narrowUniversal, if_neg h.1, if_neg h.2]

theorem narrowManufacturer_eq_none {id p : List Byte} (h : isDevicePayload id p = false) :
    narrowManufacturer id p = none := by
  rw [Bool.eq_false_iff, ne_eq, isDevicePayload_iff, not_and, not_or] at h
  unfold narrowManufacturer
  split
  case isTrue hid => rw [if_neg (h hid).1, if_neg (h hid).2]
  case isFalse => rfl

/-- A universal message narrows by its pattern, or has none. -/
theorem universal_cases (dev : Byte) (p : List Byte) :
    .sysExUniversalNonRealtime dev p = identityRequestMessage dev ∨
    (∃ man family number rev, family.length = 2 ∧ number.length = 2 ∧ rev.length = 4 ∧
      .sysExUniversalNonRealtime dev p = identityReplyMessage dev man family number rev) ∨
    isIdentityPayload p = false := by
  cases h : isIdentityPayload p
  case false => exact .inr (.inr rfl)
  case true =>
    rcases (isIdentityPayload_iff p).1 h with rfl | ⟨hlen, h0, h1⟩
    · exact .inl rfl
    · match p, hlen with
      | [_, _, man, f0, f1, n0, n1, r0, r1, r2, r3], _ =>
        cases h0
        cases h1
        exact .inr (.inl ⟨man, [f0, f1], [n0, n1], [r0, r1, r2, r3], rfl, rfl, rfl, rfl⟩)

/-- A manufacturer message narrows by its pattern, or has none. -/
theorem manufacturer_cases (id p : List Byte) :
    (∃ dev a b c, a.length = 4 ∧ b.length = 4 ∧ .sysExManufacturer id p = readRequestMessage dev a b c) ∨
    (∃ dev a data c, a.length = 4 ∧ .sysExManufacturer id p = dataSetMessage dev a data c) ∨
    isDevicePayload id p = false := by
  cases h : isDevicePayload id p
  case false => exact .inr (.inr rfl)
  case true =>
    obtain ⟨⟨rfl, hmodel⟩, ⟨hlen, hcmd⟩ | ⟨hlen, hcmd⟩⟩ := (isDevicePayload_iff id p).1 h
    · match p, hlen with
      | [dev, _, _, _, _, a0, a1, a2, a3, b0, b1, b2, b3, c], _ =>
        cases hmodel
        cases hcmd
        exact .inl ⟨dev, [a0, a1, a2, a3], [b0, b1, b2, b3], c, rfl, rfl, rfl⟩
    · match p, hlen with
      | dev :: _ :: _ :: _ :: _ :: a0 :: a1 :: a2 :: a3 :: x :: rest, _ =>
        cases hmodel
        cases hcmd
        refine .inr (.inl ⟨dev, [a0, a1, a2, a3], (x :: rest).dropLast, (x :: rest).getLast nofun, rfl, ?_⟩)
        simp [dataSetMessage, Config.modelId, Config.cmdDt1, List.dropLast_concat_getLast]

/-! ### Wire rows and messages -/

/-- The message whose frame a wire row is; the operations and the two event rows have none. -/
def messageOfRow : Instr → Option MidiMessage
  | .noteOff c k v => some (.noteOff c.toNat k.toNat v.toNat)
  | .noteOn c k v => some (.noteOn c.toNat k.toNat v.toNat)
  | .polyKeyPressure c k p => some (.polyKeyPressure c.toNat k.toNat p.toNat)
  | .controlChange c n v => some (.controlChange c.toNat n.toNat v.toNat)
  | .channelMode c kind v => some (.channelMode c.toNat kind v.toNat)
  | .programChange c p => some (.programChange c.toNat p.toNat)
  | .channelPressure c p => some (.channelPressure c.toNat p.toNat)
  | .pitchBend c b => some (.pitchBend c.toNat b)
  | .timeCode t v => some (.timeCode t.toNat v.toNat)
  | .songPositionPointer p => some (.songPositionPointer p.toNat)
  | .songSelect s => some (.songSelect s.toNat)
  | .tuneRequest => some .tuneRequest
  | .clock => some .clock
  | .start => some .start
  | .continueMsg => some .continueMsg
  | .stop => some .stop
  | .activeSensing => some .activeSensing
  | .reset => some .reset
  | .sysExUniversalRealtime dev p => some (.sysExUniversalRealtime dev p)
  | .sysExUniversalNonRealtime dev p => some (.sysExUniversalNonRealtime dev p)
  | .sysExManufacturer id p => some (.sysExManufacturer id p)
  | .identityRequest dev => some (identityRequestMessage dev)
  | .identityReply dev man family number rev => some (identityReplyMessage dev man family number rev)
  | .readRequest dev a s c => some (readRequestMessage dev a s c)
  | .dataSet dev a data c => some (dataSetMessage dev a data c)
  | _ => none

theorem encode_of_messageOfRow {i : Instr} {m : MidiMessage} (h : messageOfRow i = some m) :
    encode i = .rx (encodeMessage m) := by
  cases i <;> cases h <;> rfl

/-- A term without a message is an operation or one of the two event rows (R73). -/
theorem cases_of_messageOfRow_eq_none {i : Instr} (h : messageOfRow i = none) :
    (∃ c, encode i = .cmd c) ∨ i = .evTick ∨ ∃ f, i = .evRx f := by
  cases i
  case evTick => exact .inr (.inl rfl)
  case evRx f => exact .inr (.inr ⟨f, rfl⟩)
  case sbFromint | sbToint | sbTobytes | sbFrombytes | sbOffsetby | sbCmp | sbDiff | dsAddi | dsSubi | rgContains |
      rgCovered | csCompute | csVerify | mcDecode | mcEncode | dxNarrow | dxMkidreq | dxMkrq1 | dxMkdt1 | rqSendu |
      rqSendrRead | rqSendrIdent | rqGet | rqCancel | srRead =>
    exact .inl ⟨_, rfl⟩
  all_goals cases h

theorem rowOfMessage_identityReply (dev man : Byte) {family number rev : List Byte} (hf : family.length = 2)
    (hn : number.length = 2) (hr : rev.length = 4) :
    rowOfMessage (identityReplyMessage dev man family number rev) = .identityReply dev man family number rev := by
  have h := narrow_identityReply dev man hf hn hr
  simp only [identityReplyMessage, narrow] at h
  simp only [identityReplyMessage, rowOfMessage, h, mkIdentityReply]

theorem rowOfMessage_readRequest (dev c : Byte) {a b : Digits} (ha : a.length = 4) (hb : b.length = 4) :
    rowOfMessage (readRequestMessage dev a b c) = .readRequest dev a b c := by
  have h := narrow_readRequest dev c ha hb
  simp only [readRequestMessage, narrow] at h
  simp only [readRequestMessage, rowOfMessage, h]

theorem rowOfMessage_dataSet (dev c : Byte) {a : Digits} (ha : a.length = 4) (data : List Byte) :
    rowOfMessage (dataSetMessage dev a data c) = .dataSet dev a data c := by
  have h := narrow_dataSet dev c ha data
  simp only [dataSetMessage, narrow] at h
  simp only [dataSetMessage, rowOfMessage, h]

theorem rowOfMessage_universal (dev : Byte) {p : List Byte} (h : isIdentityPayload p = false) :
    rowOfMessage (.sysExUniversalNonRealtime dev p) = .sysExUniversalNonRealtime dev p := by
  simp only [rowOfMessage, narrowUniversal_eq_none dev h]

theorem rowOfMessage_manufacturer {id p : List Byte} (h : isDevicePayload id p = false) :
    rowOfMessage (.sysExManufacturer id p) = .sysExManufacturer id p := by
  simp only [rowOfMessage, narrowManufacturer_eq_none h]

theorem messageValid_identityRequest (dev : Byte) : messageValid (identityRequestMessage dev) = isData dev := by
  simp [messageValid, identityRequestMessage, isData]

theorem messageValid_identityReply (dev man : Byte) (family number rev : List Byte) :
    messageValid (identityReplyMessage dev man family number rev) =
      (isData dev && isData man && family.all isData && number.all isData && rev.all isData) := by
  simp [messageValid, identityReplyMessage, isData, Bool.and_assoc]

theorem messageValid_readRequest (dev : Byte) (a b : Digits) (c : Byte) :
    messageValid (readRequestMessage dev a b c) =
      (isData dev && a.all isData && b.all isData && isData c) := by
  simp [messageValid, readRequestMessage, manufacturerIdOk, Config.mfrId, Config.modelId, Config.cmdRq1, isData,
    Bool.and_assoc]

theorem messageValid_dataSet (dev : Byte) (a : Digits) (data : List Byte) (c : Byte) :
    messageValid (dataSetMessage dev a data c) =
      (isData dev && a.all isData && data.all isData && isData c) := by
  simp [messageValid, dataSetMessage, manufacturerIdOk, Config.mfrId, Config.modelId, Config.cmdDt1, isData,
    Bool.and_assoc]

theorem variantLength_identityRequest (dev : Byte) : variantLength (identityRequestMessage dev) = 6 := rfl

theorem variantLength_identityReply (dev man : Byte) {family number rev : List Byte} (hf : family.length = 2)
    (hn : number.length = 2) (hr : rev.length = 4) :
    variantLength (identityReplyMessage dev man family number rev) = 15 := by
  simp [variantLength, identityReplyMessage, hf, hn, hr]

theorem variantLength_readRequest (dev c : Byte) {a b : Digits} (ha : a.length = 4) (hb : b.length = 4) :
    variantLength (readRequestMessage dev a b c) = 17 := by
  simp [variantLength, readRequestMessage, Config.modelId, ha, hb]

theorem variantLength_dataSet (dev c : Byte) {a : Digits} (ha : a.length = 4) (data : List Byte) :
    variantLength (dataSetMessage dev a data c) = 13 + data.length := by
  simp only [variantLength, dataSetMessage, Config.modelId, List.length_append, List.length_cons, List.length_nil, ha]
  omega

/-- The length of a message's frame is the one R80 and R195 give. -/
theorem encodeMessage_length (m : MidiMessage) : (encodeMessage m).length = variantLength m := by
  cases m
  case sysExUniversalRealtime | sysExUniversalNonRealtime | sysExManufacturer =>
    simp only [encodeMessage, variantLength, List.length_append, List.length_cons, List.length_nil]
  all_goals rfl

theorem seventeen_le_frameMax : 17 ≤ Config.frameMax := Nat.le_add_left 17 _

theorem fitsPort_iff (n : Nat) : fitsPort n = true ↔ n ≤ Config.frameMax := decide_eq_true_iff

/-! ### The message of a well-formed row -/

/-- Message `m` keeps its invariants, belongs to row `i` and has a frame that fits the RX port. -/
structure IsRowOf (i : Instr) (m : MidiMessage) : Prop where
  valid : messageValid m = true
  row : rowOfMessage m = i
  fits : variantLength m ≤ Config.frameMax

theorem isRowOf_identityReply {dev man : Byte} {family number rev : List Byte}
    (hi : (Instr.identityReply dev man family number rev).wellFormed = true) :
    IsRowOf (.identityReply dev man family number rev) (identityReplyMessage dev man family number rev) := by
  simp only [Instr.wellFormed, Bool.and_eq_true, decide_eq_true_eq] at hi
  obtain ⟨⟨⟨⟨⟨⟨⟨hdev, hman⟩, hf⟩, hfc⟩, hn⟩, hnc⟩, hr⟩, hrc⟩ := hi
  refine ⟨?_, rowOfMessage_identityReply dev man hf hn hr, ?_⟩
  · simp only [messageValid_identityReply, hdev, hman, hfc, hnc, hrc, Bool.and_self]
  · have hmax := seventeen_le_frameMax
    rw [variantLength_identityReply dev man hf hn hr]
    omega

theorem isRowOf_readRequest {dev c : Byte} {a b : Digits} (hi : (Instr.readRequest dev a b c).wellFormed = true) :
    IsRowOf (.readRequest dev a b c) (readRequestMessage dev a b c) := by
  simp only [Instr.wellFormed, fourDigits, Bool.and_eq_true, decide_eq_true_eq] at hi
  obtain ⟨⟨⟨hdev, ha, hac⟩, hb, hbc⟩, hc⟩ := hi
  refine ⟨?_, rowOfMessage_readRequest dev c ha hb, ?_⟩
  · simp only [messageValid_readRequest, hdev, hac, hbc, hc, Bool.and_self]
  · rw [variantLength_readRequest dev c ha hb]
    exact seventeen_le_frameMax

theorem isRowOf_dataSet {dev c : Byte} {a : Digits} {data : List Byte}
    (hi : (Instr.dataSet dev a data c).wellFormed = true) :
    IsRowOf (.dataSet dev a data c) (dataSetMessage dev a data c) := by
  simp only [Instr.wellFormed, fourDigits, Bool.and_eq_true, decide_eq_true_eq, fitsPort_iff] at hi
  obtain ⟨⟨⟨⟨hdev, ha, hac⟩, hdata⟩, hc⟩, hfits⟩ := hi
  refine ⟨?_, rowOfMessage_dataSet dev c ha data, ?_⟩
  · simp only [messageValid_dataSet, hdev, hac, hdata, hc, Bool.and_self]
  · rw [variantLength_dataSet dev c ha]
    exact hfits

theorem isRowOf_universal {dev : Byte} {p : List Byte}
    (hi : (Instr.sysExUniversalNonRealtime dev p).wellFormed = true) :
    IsRowOf (.sysExUniversalNonRealtime dev p) (.sysExUniversalNonRealtime dev p) := by
  simp only [Instr.wellFormed, Bool.and_eq_true, Bool.not_eq_true', fitsPort_iff] at hi
  obtain ⟨⟨⟨hdev, hp⟩, hfits⟩, hplain⟩ := hi
  refine ⟨?_, rowOfMessage_universal dev hplain, ?_⟩
  · simp only [messageValid, hdev, hp, Bool.and_self]
  · simp only [variantLength]
    omega

theorem isRowOf_manufacturer {id p : List Byte} (hi : (Instr.sysExManufacturer id p).wellFormed = true) :
    IsRowOf (.sysExManufacturer id p) (.sysExManufacturer id p) := by
  simp only [Instr.wellFormed, Bool.and_eq_true, Bool.not_eq_true', fitsPort_iff] at hi
  obtain ⟨⟨⟨hid, hp⟩, hfits⟩, hplain⟩ := hi
  refine ⟨?_, rowOfMessage_manufacturer hplain, ?_⟩
  · simp only [messageValid, hid, hp, Bool.and_self]
  · simp only [variantLength]
    omega

/-- A well-formed wire row stands for its message: its fields have the widths of the message's ranges, and a SysEx row
has no pattern that would make it a device message. -/
theorem isRowOf_of_wellFormed {i : Instr} {m : MidiMessage} (hi : i.wellFormed = true) (hm : messageOfRow i = some m) :
    IsRowOf i m := by
  have hmax := seventeen_le_frameMax
  have h3 (t : BitVec 3) : t.toNat < 8 := t.isLt
  have h4 (c : BitVec 4) : c.toNat < 16 := c.isLt
  have h7 (v : BitVec 7) : v.toNat < 128 := v.isLt
  have h14 (p : BitVec 14) : p.toNat < 16384 := p.isLt
  cases i
  case controlChange | pitchBend =>
    cases hm
    exact ⟨by simpa [messageValid, h4, h7, Instr.wellFormed] using hi, by simp [rowOfMessage],
      by simp only [variantLength]; omega⟩
  case noteOff | noteOn | polyKeyPressure | channelMode | programChange | channelPressure | timeCode |
      songPositionPointer | songSelect | tuneRequest | clock | start | continueMsg | stop | activeSensing | reset =>
    cases hm
    exact ⟨by simp [messageValid, h3, h4, h7, h14], by simp [rowOfMessage], by simp only [variantLength]; omega⟩
  case sysExUniversalRealtime dev p =>
    cases hm
    simp only [Instr.wellFormed, Bool.and_eq_true, fitsPort_iff] at hi
    obtain ⟨hclean, hfits⟩ := hi
    exact ⟨by simp only [messageValid, hclean, Bool.and_self], rfl, by simp only [variantLength]; omega⟩
  case identityRequest dev =>
    cases hm
    exact ⟨(messageValid_identityRequest dev).trans hi, rfl, by rw [variantLength_identityRequest]; omega⟩
  case sysExUniversalNonRealtime =>
    cases hm
    exact isRowOf_universal hi
  case sysExManufacturer =>
    cases hm
    exact isRowOf_manufacturer hi
  case identityReply =>
    cases hm
    exact isRowOf_identityReply hi
  case readRequest =>
    cases hm
    exact isRowOf_readRequest hi
  case dataSet =>
    cases hm
    exact isRowOf_dataSet hi
  all_goals cases hm

/-! ### The row of a valid message -/

/-- The row of `m` is a row of that very message, and well formed when the frame fits the RX port. -/
structure HasRow (m : MidiMessage) : Prop where
  message : messageOfRow (rowOfMessage m) = some m
  wellFormed : variantLength m ≤ Config.frameMax → (rowOfMessage m).wellFormed = true

theorem hasRow_identityReply {dev man : Byte} {family number rev : List Byte} (hf : family.length = 2)
    (hn : number.length = 2) (hr : rev.length = 4)
    (hm : messageValid (identityReplyMessage dev man family number rev) = true) :
    HasRow (identityReplyMessage dev man family number rev) := by
  have hrow := rowOfMessage_identityReply dev man hf hn hr
  refine ⟨by rw [hrow]; rfl, fun _ => ?_⟩
  simp only [messageValid_identityReply, Bool.and_eq_true] at hm
  simp only [hrow, Instr.wellFormed, hm, hf, hn, hr, decide_true, Bool.and_self]

theorem hasRow_readRequest {dev c : Byte} {a b : Digits} (ha : a.length = 4) (hb : b.length = 4)
    (hm : messageValid (readRequestMessage dev a b c) = true) : HasRow (readRequestMessage dev a b c) := by
  have hrow := rowOfMessage_readRequest dev c ha hb
  refine ⟨by rw [hrow]; rfl, fun _ => ?_⟩
  simp only [messageValid_readRequest, Bool.and_eq_true] at hm
  simp only [hrow, Instr.wellFormed, fourDigits, hm, ha, hb, decide_true, Bool.and_self]

theorem hasRow_dataSet {dev c : Byte} {a : Digits} {data : List Byte} (ha : a.length = 4)
    (hm : messageValid (dataSetMessage dev a data c) = true) : HasRow (dataSetMessage dev a data c) := by
  have hrow := rowOfMessage_dataSet dev c ha data
  refine ⟨by rw [hrow]; rfl, fun hfits => ?_⟩
  simp only [messageValid_dataSet, Bool.and_eq_true] at hm
  rw [variantLength_dataSet dev c ha, ← fitsPort_iff] at hfits
  simp only [hrow, Instr.wellFormed, fourDigits, hm, ha, hfits, decide_true, Bool.and_self]

/-- A valid universal message is an identity message or belongs to its own SysEx row (R206, R207). -/
theorem hasRow_universal {dev : Byte} {p : List Byte}
    (hm : messageValid (.sysExUniversalNonRealtime dev p) = true) : HasRow (.sysExUniversalNonRealtime dev p) := by
  rcases universal_cases dev p with h | ⟨man, family, number, rev, hf, hn, hr, h⟩ | h
  · rw [h] at hm ⊢
    exact ⟨rfl, fun _ => (messageValid_identityRequest dev).symm.trans hm⟩
  · rw [h] at hm ⊢
    exact hasRow_identityReply hf hn hr hm
  · have hrow := rowOfMessage_universal dev h
    refine ⟨by rw [hrow]; rfl, fun hfits => ?_⟩
    have hport : fitsPort (p.length + 4) = true := by
      simp only [variantLength] at hfits
      exact (fitsPort_iff _).2 (by omega)
    simp only [messageValid, Bool.and_eq_true] at hm
    simp only [hrow, Instr.wellFormed, hm, h, hport, Bool.not_false, Bool.and_self]

/-- A valid manufacturer message is a device message or belongs to its own SysEx row (R208, R209). -/
theorem hasRow_manufacturer {id p : List Byte} (hm : messageValid (.sysExManufacturer id p) = true) :
    HasRow (.sysExManufacturer id p) := by
  rcases manufacturer_cases id p with ⟨dev, a, b, c, ha, hb, h⟩ | ⟨dev, a, data, c, ha, h⟩ | h
  · rw [h] at hm ⊢
    exact hasRow_readRequest ha hb hm
  · rw [h] at hm ⊢
    exact hasRow_dataSet ha hm
  · have hrow := rowOfMessage_manufacturer h
    refine ⟨by rw [hrow]; rfl, fun hfits => ?_⟩
    have hport : fitsPort (id.length + p.length + 2) = true := by
      simp only [variantLength] at hfits
      exact (fitsPort_iff _).2 (by omega)
    simp only [messageValid, Bool.and_eq_true] at hm
    simp only [hrow, Instr.wellFormed, hm, h, hport, Bool.not_false, Bool.and_self]

/-- A valid message has a row: its fields fit the row's widths. -/
theorem hasRow_of_valid {m : MidiMessage} (hm : messageValid m = true) : HasRow m := by
  cases m
  case noteOff | noteOn | polyKeyPressure | controlChange | channelMode | programChange | channelPressure | pitchBend |
      timeCode | songPositionPointer | songSelect =>
    simp only [messageValid, Bool.and_eq_true, decide_eq_true_eq] at hm
    refine ⟨?_, fun _ => ?_⟩
    · simp (disch := omega) only [rowOfMessage, messageOfRow.eq_def, BitVec.toNat_ofNat, Nat.mod_eq_of_lt]
    · simp (disch := omega) only [rowOfMessage, Instr.wellFormed, hm, BitVec.toNat_ofNat, Nat.mod_eq_of_lt, decide_true,
        Bool.and_self]
  case sysExUniversalRealtime dev p =>
    refine ⟨rfl, fun hfits => ?_⟩
    have hport : fitsPort (p.length + 4) = true := by
      simp only [variantLength] at hfits
      exact (fitsPort_iff _).2 (by omega)
    simp only [messageValid, Bool.and_eq_true] at hm
    simp only [rowOfMessage, Instr.wellFormed, hm, hport, Bool.and_self]
  case sysExUniversalNonRealtime => exact hasRow_universal hm
  case sysExManufacturer => exact hasRow_manufacturer hm
  all_goals exact ⟨rfl, fun _ => rfl⟩

/-! ### Commands and operations -/

theorem withWidth_selector (w : Width) (f : Width → Instr) : withWidth (selectorOfWidth w) f = .ok (f w) := by
  cases w <;> rfl

theorem selector_cases (w : BitVec 2) : w = 0 ∨ w = 1 ∨ w = 2 ∨ w = 3 := by
  revert w
  decide

theorem withWidth_isOk (w : BitVec 2) (f : Width → Instr) : (withWidth w f).isOk = !decide (w = 3) := by
  obtain rfl | rfl | rfl | rfl := selector_cases w
  all_goals rfl

/-- An adder operation that passes the width check keeps the selector it was given (R25). -/
theorem yields_withWidth {P : Instr → Prop} {w : BitVec 2} {f : Width → Instr}
    (h : ∀ v, selectorOfWidth v = w → P (f v)) : Yields P (withWidth w f) := by
  obtain rfl | rfl | rfl | rfl := selector_cases w
  · exact yields_ok.2 (h .w7 rfl)
  · exact yields_ok.2 (h .w14 rfl)
  · exact yields_ok.2 (h .w28 rfl)
  · exact yields_error _ _

/-- The command of an operation names it, with its operands (R70, R71). -/
theorem decodeCommand_encode {i : Instr} {c : Command} (h : encode i = .cmd c) : decodeCommand c = .ok i := by
  cases i
  case sbFromint | sbToint | sbTobytes | sbFrombytes | sbOffsetby | sbCmp | sbDiff =>
    cases h
    exact withWidth_selector _ _
  case dsAddi | dsSubi | rgContains | rgCovered | csCompute | csVerify | mcDecode | mcEncode | dxNarrow | dxMkidreq |
      dxMkrq1 | dxMkdt1 | rqSendu | rqSendrRead | rqSendrIdent | rqGet | rqCancel | srRead =>
    cases h
    rfl
  all_goals cases h

/-- The decoder accepts a command of the table that supplies the slots it reads, but for `W = 3` (R72): the seven adder arms
check the width too, and an arm refuses when a slot it reads is missing. `SRN` 6 and 7 are left to the operation. -/
theorem decodeCommand_isOk (c : Command) :
    (decodeCommand c).isOk = (suppliesSlots c &&
      !(decide (0x10 ≤ c.op.toNat) && decide (c.op.toNat ≤ 0x16) && decide (c.operands.w = some 3))) := by
  unfold decodeCommand
  dsimp only
  split
  case h_26 => simp [suppliesSlots, *]
  case h_1 hop | h_2 hop | h_3 hop | h_4 hop | h_5 hop | h_6 hop | h_7 hop =>
    simp only [suppliesSlots, hop]
    split
    · simp [withWidth_isOk, *]
    · grind -ring -linarith [isOk_error, Option.isSome_iff_exists]
  all_goals
    rename_i hop
    simp only [suppliesSlots, hop]
    split
    · simp [*]
    · grind -ring -linarith [isOk_error, Option.isSome_iff_exists]

/-- Every slot that `o` supplies is supplied by `p` with the same value. -/
def SlotsFrom (o p : OperandSlots) : Prop :=
  (o.w = none ∨ o.w = p.w) ∧ (o.a = none ∨ o.a = p.a) ∧ (o.b = none ∨ o.b = p.b) ∧ (o.x = none ∨ o.x = p.x) ∧
  (o.k = none ∨ o.k = p.k) ∧ (o.n = none ∨ o.n = p.n) ∧ (o.buf = none ∨ o.buf = p.buf) ∧
  (o.map = none ∨ o.map = p.map) ∧ (o.msg = none ∨ o.msg = p.msg) ∧ (o.dev = none ∨ o.dev = p.dev) ∧
  (o.csb = none ∨ o.csb = p.csb) ∧ (o.timeout = none ∨ o.timeout = p.timeout) ∧ (o.h = none ∨ o.h = p.h) ∧
  (o.srn = none ∨ o.srn = p.srn)

/-- The instruction is the operation of the command, with operands out of the command's slots. -/
def IsOperationOf (c : Command) (i : Instr) : Prop := ∃ o, encode i = .cmd ⟨c.op, o⟩ ∧ SlotsFrom o c.operands

theorem isOperationOf_intro {c : Command} {i : Instr} {op : Byte} {o : OperandSlots} (he : encode i = .cmd ⟨op, o⟩)
    (hop : c.op.toNat = op.toNat) (ho : SlotsFrom o c.operands) : IsOperationOf c i :=
  ⟨o, by rw [he, BitVec.eq_of_toNat_eq hop], ho⟩

/-- Each accepting arm of the decoder builds the operation of its op code out of the slots it has read (R70, R71). -/
theorem decodeCommand_isOperationOf (c : Command) : Yields (IsOperationOf c) (decodeCommand c) := by
  unfold decodeCommand
  dsimp only
  split
  case h_26 => exact yields_error _ _
  case h_1 | h_2 | h_3 | h_4 | h_5 | h_6 | h_7 =>
    split
    · exact yields_withWidth fun v hv => isOperationOf_intro rfl ‹_› (by simp [SlotsFrom, *])
    · exact yields_error _ _
  all_goals
    split
    · exact yields_ok.2 (isOperationOf_intro rfl ‹_› (by simp [SlotsFrom, *]))
    · exact yields_error _ _

/-! ### The statements of this family -/

theorem raiseFault_eq_faulted (k : FaultKind) (s : State) : raiseFault k s = faulted s k := rfl

theorem decodeCommand_srRead {c : Command} {n : BitVec 3} (hop : c.op.toNat = 0x60) (hsrn : c.operands.srn = some n) :
    decodeCommand c = .ok (.srRead n) := by
  simp [decodeCommand, hop, hsrn]

/-- `SRN` 6 and 7 are reserved (R40, R248). -/
theorem exec_srRead_reserved {n : BitVec 3} (hn : n = 6 ∨ n = 7) (s : State) :
    exec (.srRead n) s = .next (faulted s .illegalOp) := by
  rcases hn with rfl | rfl <;> rfl

/-- Of the commands R72 refuses, the decoder lets only the reserved `SRN` through, which the operation then refuses. -/
theorem refused_cases {c : Command} (h : refusedByR72 c = true) :
    (∃ r, decodeCommand c = .error r) ∨ ∃ n, decodeCommand c = .ok (.srRead n) ∧ (n = 6 ∨ n = 7) := by
  cases hd : decodeCommand c with
  | error r => exact .inl ⟨r, rfl⟩
  | ok i =>
    have hok := (decodeCommand_isOk c).symm.trans (congrArg Except.isOk hd)
    simp only [isOk_ok, Bool.and_eq_true, Bool.not_eq_true'] at hok
    obtain ⟨hslots, hwidth⟩ := hok
    simp only [refusedByR72, hslots, hwidth, Bool.not_true, Bool.false_or, Bool.and_eq_true, Bool.or_eq_true,
      decide_eq_true_eq] at h
    obtain ⟨hop, hsrn⟩ := h
    rw [← hd]
    exact .inr (hsrn.elim (fun h6 => ⟨6, decodeCommand_srRead hop h6, .inl rfl⟩)
      fun h7 => ⟨7, decodeCommand_srRead hop h7, .inr rfl⟩)

/-- A command R72 does not refuse passes the decoder. -/
theorem accepted_decodes {c : Command} (h : refusedByR72 c = false) : ∃ i, decodeCommand c = .ok i := by
  simp only [refusedByR72, Bool.or_eq_false_iff, Bool.not_eq_false'] at h
  obtain ⟨⟨hslots, hwidth⟩, -⟩ := h
  rw [← isOk_iff, decodeCommand_isOk, hslots, hwidth]
  rfl

/-- Settles O4, by the event of the instruction: a command names its operation, and a frame decodes to the message whose
row the instruction is. -/
theorem encodedInstructionDecodesBack : Obligations.EncodedInstructionDecodesBack := by
  intro i hi
  cases hm : messageOfRow i with
  | some m =>
    have hrow := isRowOf_of_wellFormed hi hm
    simp only [encode_of_messageOfRow hm]
    refine ⟨?_, fun f hf => ?_⟩
    · simp only [decodeEvent, decodeRx, decodeFrame_encodeMessage hrow.valid, hrow.row]
    · rw [← Event.rx.inj hf, encodeMessage_length]
      exact hrow.fits
  | none =>
    rcases cases_of_messageOfRow_eq_none hm with ⟨c, hc⟩ | rfl | ⟨f, rfl⟩
    · rw [hc]
      exact ⟨decodeCommand_encode hc, nofun⟩
    · exact ⟨rfl, nofun⟩
    · simp only [Instr.wellFormed, Bool.and_eq_true, Bool.not_eq_true', fitsPort_iff] at hi
      obtain ⟨hfits, hbad⟩ := hi
      refine ⟨?_, fun g hg => Event.rx.inj hg ▸ hfits⟩
      cases hd : decodeFrame f with
      | ok m => rw [← decodeFrame_isOk, hd] at hbad; cases hbad
      | error e => simp only [encode, decodeEvent, decodeRx, hd]

/-- Settles O2, by what the decoder lets through of the commands R72 refuses. -/
theorem refusedCommandIsIllegalOp : Obligations.RefusedCommandIsIllegalOp := by
  intro s c rest hin hrefused
  rcases refused_cases hrefused with ⟨r, hd⟩ | ⟨n, hd, hn⟩
  · rw [step_refused hin hd, raiseFault_eq_faulted]
    rfl
  · rw [step_decoded hin hd]
    exact exec_srRead_reserved hn _

/-- Settles O3: the decoder accepts the command, and what it answers is an operation of the command's own slots. -/
theorem acceptedCommandKeepsItsOperands : Obligations.AcceptedCommandKeepsItsOperands := by
  intro c haccepted
  obtain ⟨i, hd⟩ := accepted_decodes haccepted
  obtain ⟨o, henc, hslots⟩ := decodeCommand_isOperationOf c i hd
  exact ⟨i, o, hd, henc, hslots⟩

/-- Settles O5, by whether the frame decodes: then it is the frame of its message, and the message that of its row. -/
theorem everyFrameEncodesBack : Obligations.EveryFrameEncodesBack := by
  intro f
  cases hd : decodeFrame f with
  | ok m =>
    obtain ⟨hm, rfl⟩ := (decodeFrame_eq_ok_iff f m).1 hd
    have hrow := hasRow_of_valid hm
    simp only [decodeRx, hd, encodeMessage_length]
    exact ⟨encode_of_messageOfRow hrow.message, hrow.wellFormed⟩
  | error e =>
    have hbad : frameWellFormed f = false := by rw [← decodeFrame_isOk, hd, isOk_error]
    simp only [decodeRx, hd]
    refine ⟨rfl, fun hfits => ?_⟩
    simp only [Instr.wellFormed, (fitsPort_iff _).2 hfits, hbad, Bool.not_false, Bool.and_self]

theorem exec_universal_of_narrow {dev : Byte} {p : List Byte} {d : DeviceMessage}
    (h : narrow (.sysExUniversalNonRealtime dev p) = some d) (s : State) :
    exec (.sysExUniversalNonRealtime dev p) s = .next (deliver Config.mapCap d s) := by
  simp only [exec, execSysExUniversalNonRealtime, receiveMessage, h]

theorem exec_manufacturer_of_narrow {id p : List Byte} {d : DeviceMessage}
    (h : narrow (.sysExManufacturer id p) = some d) (s : State) :
    exec (.sysExManufacturer id p) s = .next (deliver Config.mapCap d s) := by
  simp only [exec, execSysExManufacturer, receiveMessage, h]

/-- Settles O38: the row of a frame is its arrival, and each pattern narrows to its device message. -/
theorem frameArrivalIsItsRow : Obligations.FrameArrivalIsItsRow := fun s =>
  ⟨fun f => (exec_decodeRx f s).symm,
   fun dev => exec_universal_of_narrow (narrow_identityRequest dev) s,
   fun dev man f0 f1 n0 n1 r0 r1 r2 r3 =>
    have hf : [f0, f1].length = 2 := rfl
    have hn : [n0, n1].length = 2 := rfl
    have hr : [r0, r1, r2, r3].length = 4 := rfl
    exec_universal_of_narrow (narrow_identityReply dev man hf hn hr) s,
   fun dev _ _ c ha hb => exec_manufacturer_of_narrow (narrow_readRequest dev c ha hb) s,
   fun dev _ p c ha => exec_manufacturer_of_narrow (narrow_dataSet dev c ha p) s⟩

/-- Settles O6: each word is evaluated. -/
theorem writtenOutWordsDecode : Obligations.WrittenOutWordsDecode :=
  ⟨rfl, rfl, rfl, rfl, rfl, rfl, rfl, rfl⟩

end Sys2Proof.Machine

/-! PROOFS of family 40_sevenbit.md: digit sequences and the integers they stand for, the digit-wise operations as
arithmetic on those integers, what each operation answers; then the statements of this family. -/

namespace Sys2Proof.Machine

/-! ### Digit sequences (R9, R101) -/

theorem validDigits_iff (d : Nat) (a : Digits) : validDigits d a = true ↔ IsDigits d a := by
  simp [validDigits, IsDigits, isData]

theorem isDigits_zero {a : Digits} : IsDigits 0 a ↔ a = [] := by
  simp only [IsDigits, List.length_eq_zero_iff, and_iff_left_iff_imp]
  rintro rfl
  exact nofun

theorem isDigits_cons {d : Nat} {x : Byte} {a : Digits} :
    IsDigits (d + 1) (x :: a) ↔ x.toNat < 128 ∧ IsDigits d a := by
  simp only [IsDigits, List.length_cons, Nat.add_right_cancel_iff, List.forall_mem_cons]
  tauto

theorem IsDigits.exists_cons {d : Nat} {a : Digits} (h : IsDigits (d + 1) a) :
    ∃ x as, a = x :: as ∧ x.toNat < 128 ∧ IsDigits d as := by
  obtain ⟨x, as, rfl⟩ := List.exists_cons_of_length_eq_add_one h.1
  exact ⟨x, as, rfl, isDigits_cons.1 h⟩

/-! ### The integer of a digit sequence (R9, R100) -/

/-- The bound `2^W` of a width of `d` digits, as a power of the base. -/
theorem two_pow_seven_mul (d : Nat) : 2 ^ (7 * d) = 128 ^ d := by rw [pow_mul]; rfl

theorem widthLimit_eq (w : Width) : widthLimit w = 128 ^ digitCount w := by cases w <;> rfl

/-- A value of any width fits the 32 bits of the result slot (R103). -/
theorem digitCount_pow_lt (w : Width) : 128 ^ digitCount w < 2 ^ 32 := by cases w <;> decide

theorem toInt_cons {d : Nat} {a : Digits} (ha : IsDigits d a) (x : Byte) :
    toInt (x :: a) = x.toNat * 128 ^ d + toInt a := by rw [toInt, ha.1]

theorem toInt_lt {d : Nat} {a : Digits} (ha : IsDigits d a) : toInt a < 128 ^ d := by
  induction d generalizing a with
  | zero => simp [isDigits_zero.1 ha, toInt]
  | succ d ih =>
    obtain ⟨x, as, rfl, hx, has⟩ := ha.exists_cons
    calc toInt (x :: as)
        = x.toNat * 128 ^ d + toInt as := toInt_cons has x
      _ < (x.toNat + 1) * 128 ^ d := by linarith [ih has]
      _ ≤ 128 * 128 ^ d := Nat.mul_le_mul_right _ hx
      _ = 128 ^ (d + 1) := (pow_succ' 128 d).symm

/-- A smaller leading digit outweighs all digits after it. -/
theorem toInt_cons_lt_cons {d : Nat} {x y : Byte} {a b : Digits} (ha : IsDigits d a) (hb : IsDigits d b)
    (h : x.toNat < y.toNat) : toInt (x :: a) < toInt (y :: b) := by
  calc toInt (x :: a)
      = x.toNat * 128 ^ d + toInt a := toInt_cons ha x
    _ < (x.toNat + 1) * 128 ^ d := by linarith [toInt_lt ha]
    _ ≤ y.toNat * 128 ^ d := Nat.mul_le_mul_right _ h
    _ ≤ toInt (y :: b) := by rw [toInt_cons hb]; exact Nat.le_add_right _ _

/-- The weighted sum R103 writes out. -/
theorem toInt_eq_sum {d : Nat} {a : Digits} (ha : IsDigits d a) :
    toInt a = ∑ i ∈ Finset.range d, (a.getD i 0).toNat * 128 ^ (d - 1 - i) := by
  induction d generalizing a with
  | zero => simp [isDigits_zero.1 ha, toInt]
  | succ d ih =>
    obtain ⟨x, as, rfl, -, has⟩ := ha.exists_cons
    rw [Finset.sum_range_succ', toInt_cons has, ih has, Nat.add_comm]
    simp [Nat.sub_sub, Nat.add_comm 1]

/-! ### The digits of an integer (R9, R102, R112) -/

theorem digitsOf_isDigits (d n : Nat) : IsDigits d (digitsOf d n) := by
  induction d with
  | zero => exact isDigits_zero.2 rfl
  | succ d ih =>
    have hlt : n / 128 ^ d % 128 < 128 := Nat.mod_lt _ (by decide)
    exact isDigits_cons.2 ⟨by rwa [toNat_byteOf (by omega)], ih⟩

theorem toInt_digitsOf (d n : Nat) : toInt (digitsOf d n) = n % 128 ^ d := by
  induction d with
  | zero => simp [digitsOf, toInt, Nat.mod_one]
  | succ d ih =>
    have hlt : n / 128 ^ d % 128 < 128 := Nat.mod_lt _ (by decide)
    rw [digitsOf, toInt_cons (digitsOf_isDigits d n), toNat_byteOf (by omega), ih, pow_succ, Nat.mod_mul]
    ring

theorem toInt_digitsOf_of_lt {d n : Nat} (h : n < 128 ^ d) : toInt (digitsOf d n) = n := by
  rw [toInt_digitsOf, Nat.mod_eq_of_lt h]

theorem toInt_injective {d : Nat} {a b : Digits} (ha : IsDigits d a) (hb : IsDigits d b) (h : toInt a = toInt b) :
    a = b := by
  induction d generalizing a b with
  | zero => rw [isDigits_zero.1 ha, isDigits_zero.1 hb]
  | succ d ih =>
    obtain ⟨x, as, rfl, -, has⟩ := ha.exists_cons
    obtain ⟨y, bs, rfl, -, hbs⟩ := hb.exists_cons
    obtain hlt | heq | hgt := lt_trichotomy x.toNat y.toNat
    · exact absurd h (toInt_cons_lt_cons has hbs hlt).ne
    · obtain rfl := BitVec.eq_of_toNat_eq heq
      rw [toInt_cons has, toInt_cons hbs] at h
      rw [ih has hbs (Nat.add_left_cancel h)]
    · exact absurd h (toInt_cons_lt_cons hbs has hgt).ne'

/-- A digit sequence is found by its integer: the way from a sum to the digits that show it. -/
theorem eq_digitsOf {d n : Nat} {a : Digits} (ha : IsDigits d a) (h : toInt a = n) : a = digitsOf d n := by
  have hn : n < 128 ^ d := h ▸ toInt_lt ha
  exact toInt_injective ha (digitsOf_isDigits d n) (h.trans (toInt_digitsOf_of_lt hn).symm)

/-- The shift and mask R102 writes out. -/
theorem digitsOf_eq_map (d n : Nat) :
    digitsOf d n = (List.range d).map fun i => BitVec.ofNat 8 ((n >>> (7 * (d - 1 - i))) &&& 0x7F) := by
  have hdigit (e : Nat) : byteOf (n / 128 ^ e % 128) = BitVec.ofNat 8 ((n >>> (7 * e)) &&& 0x7F) := by
    rw [Nat.shiftRight_eq_div_pow, two_pow_seven_mul, show 0x7F = 2 ^ 7 - 1 by rfl, Nat.and_two_pow_sub_one_eq_mod]
    rfl
  induction d with
  | zero => rfl
  | succ d ih =>
    rw [digitsOf, ih, hdigit, List.range_succ_eq_map]
    simp [Function.comp_def, Nat.sub_sub, Nat.add_comm 1]

/-! ### The adder (R106 to R108) -/

theorem toNat_decide (p : Prop) [Decidable p] : (decide p).toNat = if p then 1 else 0 := Bool.cond_decide ..

/-- R107, with the carry as the number 0 or 1. -/
theorem digitCell_eq (a b : Byte) (c : Bool) :
    digitCell a b c =
      (BitVec.ofNat 8 ((a.toNat + b.toNat + c.toNat) % 128), decide (128 ≤ a.toNat + b.toNat + c.toNat)) := by
  cases c <;> rfl

/-- A cell's digit and its carry out, worth 128, make up the sum of what goes in. -/
theorem digitCell_sum {a b : Byte} (ha : a.toNat < 128) (hb : b.toNat < 128) (c : Bool) :
    (digitCell a b c).1.toNat < 128 ∧
      (digitCell a b c).2.toNat * 128 + (digitCell a b c).1.toNat = a.toNat + b.toNat + c.toNat := by
  have hc : c.toNat ≤ 1 := Bool.toNat_le c
  have hmod : (BitVec.ofNat 8 ((a.toNat + b.toNat + c.toNat) % 128)).toNat = (a.toNat + b.toNat + c.toNat) % 128 :=
    toNat_byteOf (by omega)
  rw [digitCell_eq]
  dsimp only
  rw [hmod, toNat_decide]
  split_ifs <;> omega

/-- One add answers digits again, and they with the carry out, worth `128^d`, are the sum (R107, R108 (a)). -/
theorem addDigits_sum {d : Nat} {a b : Digits} (ha : IsDigits d a) (hb : IsDigits d b) :
    IsDigits d (addDigits a b).1 ∧
    (addDigits a b).2.toNat * 128 ^ d + toInt (addDigits a b).1 = toInt a + toInt b := by
  induction d generalizing a b with
  | zero => simp [isDigits_zero.1 ha, isDigits_zero.1 hb, addDigits, isDigits_zero, toInt]
  | succ d ih =>
    obtain ⟨x, as, rfl, hx, has⟩ := ha.exists_cons
    obtain ⟨y, bs, rfl, hy, hbs⟩ := hb.exists_cons
    obtain ⟨hlow, hsum⟩ := ih has hbs
    obtain ⟨hcell, hcarry⟩ := digitCell_sum hx hy (addDigits as bs).2
    refine ⟨isDigits_cons.2 ⟨hcell, hlow⟩, ?_⟩
    simp only [addDigits, toInt_cons has, toInt_cons hbs, toInt_cons hlow]
    linear_combination 128 ^ d * hcarry + hsum

/-- R108 (b): `k` adds answer the digits of the sum, or nothing when the sum does not fit. -/
theorem offsetBy_eq {d k : Nat} {a b : Digits} (ha : IsDigits d a) (hb : IsDigits d b) :
    offsetBy k a b =
      if toInt a + k * toInt b < 128 ^ d then some (digitsOf d (toInt a + k * toInt b)) else none := by
  induction k generalizing a with
  | zero => simp [offsetBy, toInt_lt ha, ← eq_digitsOf ha rfl]
  | succ k ih =>
    obtain ⟨hdigits, hsum⟩ := addDigits_sum ha hb
    have hmul : (k + 1) * toInt b = toInt b + k * toInt b := by ring
    simp only [offsetBy]
    cases hcarry : (addDigits a b).2 with
    | false =>
      simp only [hcarry, Bool.toNat_false, Nat.zero_mul, Nat.zero_add] at hsum
      simp [ih hdigits, hsum, hmul, Nat.add_assoc]
    | true =>
      simp only [hcarry, Bool.toNat_true, Nat.one_mul] at hsum
      have hbig : ¬toInt a + (k + 1) * toInt b < 128 ^ d := by omega
      simp [hbig]

/-- The carry out of the cell of digit `i`: that of the add of the digits from `i` on (R107). -/
def carryOut (a b : Digits) (i : Nat) : Nat := (addDigits (a.drop i) (b.drop i)).2.toNat

theorem carryOut_length {d : Nat} {a b : Digits} (ha : IsDigits d a) : carryOut a b d = 0 := by
  simp [carryOut, ← ha.1, addDigits]

/-- R107: a cell carries out exactly when its two digits and the carry into it reach 128. -/
theorem carryOut_eq {d i : Nat} {a b : Digits} (ha : IsDigits d a) (hb : IsDigits d b) (hi : i < d) :
    carryOut a b i = if 128 ≤ (a.getD i 0).toNat + (b.getD i 0).toNat + carryOut a b (i + 1) then 1 else 0 := by
  have hia : i < a.length := ha.1.symm ▸ hi
  have hib : i < b.length := hb.1.symm ▸ hi
  rw [carryOut, List.drop_eq_getElem_cons hia, List.drop_eq_getElem_cons hib, addDigits, digitCell_eq,
    ← List.getD_eq_getElem a 0 hia, ← List.getD_eq_getElem b 0 hib, toNat_decide]
  rfl

/-- R107: the digits of the sum, cell by cell. -/
theorem addDigits_digits {d : Nat} {a b : Digits} (ha : IsDigits d a) (hb : IsDigits d b) :
    (addDigits a b).1 = (List.range d).map fun i =>
      BitVec.ofNat 8 (((a.getD i 0).toNat + (b.getD i 0).toNat + carryOut a b (i + 1)) % 128) := by
  induction d generalizing a b with
  | zero => simp [isDigits_zero.1 ha, isDigits_zero.1 hb, addDigits]
  | succ d ih =>
    obtain ⟨x, as, rfl, -, has⟩ := ha.exists_cons
    obtain ⟨y, bs, rfl, -, hbs⟩ := hb.exists_cons
    simp [addDigits, digitCell_eq, ih has hbs, List.range_succ_eq_map, carryOut, Function.comp_def]

/-! ### Comparison and difference (R110, R111) -/

/-- R110: the digit-wise verdict is that of the integers. -/
theorem compareDigits_eq {d : Nat} {a b : Digits} (ha : IsDigits d a) (hb : IsDigits d b) :
    compareDigits a b = if toInt a = toInt b then 0 else if toInt a < toInt b then 1 else 2 := by
  induction d generalizing a b with
  | zero => simp [isDigits_zero.1 ha, isDigits_zero.1 hb, compareDigits]
  | succ d ih =>
    obtain ⟨x, as, rfl, -, has⟩ := ha.exists_cons
    obtain ⟨y, bs, rfl, -, hbs⟩ := hb.exists_cons
    obtain hlt | heq | hgt := lt_trichotomy x.toNat y.toNat
    · have h := toInt_cons_lt_cons has hbs hlt
      simp [compareDigits, hlt, h, h.ne]
    · simp [compareDigits, heq, ih has hbs, toInt_cons has, toInt_cons hbs]
    · have h := toInt_cons_lt_cons hbs has hgt
      simp [compareDigits, hgt, hgt.not_gt, h.not_gt, h.ne']

/-- The first digit that differs orders the integers (R52). -/
theorem toInt_lt_of_first_difference {d i : Nat} {a b : Digits} (ha : IsDigits d a) (hb : IsDigits d b) (hi : i < d)
    (hsame : ∀ j, j < i → a.getD j 0 = b.getD j 0) (hlt : (a.getD i 0).toNat < (b.getD i 0).toNat) :
    toInt a < toInt b := by
  induction i generalizing d a b with
  | zero =>
    obtain ⟨d, rfl⟩ := Nat.exists_eq_add_one.2 hi
    obtain ⟨x, as, rfl, -, has⟩ := ha.exists_cons
    obtain ⟨y, bs, rfl, -, hbs⟩ := hb.exists_cons
    exact toInt_cons_lt_cons has hbs hlt
  | succ i ih =>
    obtain ⟨d, rfl⟩ := Nat.exists_eq_add_one.2 (Nat.zero_lt_of_lt hi)
    obtain ⟨x, as, rfl, -, has⟩ := ha.exists_cons
    obtain ⟨y, bs, rfl, -, hbs⟩ := hb.exists_cons
    obtain rfl : x = y := hsame 0 (Nat.succ_pos i)
    rw [toInt_cons has, toInt_cons hbs]
    exact Nat.add_lt_add_left
      (ih has hbs (Nat.lt_of_succ_lt_succ hi) (fun j hj => hsame (j + 1) (Nat.succ_lt_succ hj)) hlt) _

theorem magnitude_comm (m n : Nat) : magnitude m n = magnitude n m := by
  unfold magnitude
  split_ifs <;> omega

theorem magnitude_eq_natAbs (m n : Nat) : magnitude m n = ((m : Int) - n).natAbs := by
  unfold magnitude
  split_ifs <;> omega

/-- R111: the magnitude of a difference fits where the operands do. -/
theorem magnitude_lt {m n bound : Nat} (hm : m < bound) (hn : n < bound) : magnitude m n < bound := by
  unfold magnitude
  split_ifs <;> omega

/-! ### What an operation answers on an invalid operand (R101) -/

theorem answer_ok (r : ResultSlots) (s : State) : answer (.ok r) s = .next (answered s r) := rfl

theorem answer_error (k : FaultKind) (s : State) : answer (.error k) s = .next (faulted s k) := rfl

theorem validDigits_eq_false {d : Nat} {a : Digits} (h : ¬IsDigits d a) : validDigits d a = false :=
  Bool.eq_false_iff.2 (mt (validDigits_iff d a).1 h)

theorem validDigits_pair_eq_false {d : Nat} {a b : Digits} (h : ¬IsDigits d a ∨ ¬IsDigits d b) :
    (validDigits d a && validDigits d b) = false :=
  Bool.and_eq_false_iff.2 (h.imp validDigits_eq_false validDigits_eq_false)

/-- R105 checks length and bytes one after the other; together they are the check of R101. -/
theorem execSbFrombytes_eq (w : Width) (buf : Frame) (s : State) :
    execSbFrombytes w buf s =
      answer (if validDigits (digitCount w) buf then .ok { r := some buf } else .error .rangeError) s := by
  by_cases hlen : buf.length = digitCount w
  · cases hclean : buf.all isData <;> simp [execSbFrombytes, validDigits, hlen, hclean]
  · simp [execSbFrombytes, validDigits, hlen]

section InvalidOperand

variable {w : Width} {a b x : Digits}

theorem exec_sbToint_invalid (h : ¬IsDigits (digitCount w) a) (s : State) :
    exec (.sbToint w a) s = .next (faulted s .rangeError) := by
  simp [exec, execSbToint, validDigits_eq_false h, answer_error]

theorem exec_sbTobytes_invalid (h : ¬IsDigits (digitCount w) a) (s : State) :
    exec (.sbTobytes w a) s = .next (faulted s .rangeError) := by
  simp [exec, execSbTobytes, validDigits_eq_false h, answer_error]

theorem exec_sbFrombytes_invalid (h : ¬IsDigits (digitCount w) a) (s : State) :
    exec (.sbFrombytes w a) s = .next (faulted s .rangeError) := by
  simp [exec, execSbFrombytes_eq, validDigits_eq_false h, answer_error]

theorem exec_sbOffsetby_invalid (h : ¬IsDigits (digitCount w) a ∨ ¬IsDigits (digitCount w) b) (k : BitVec 16)
    (s : State) : exec (.sbOffsetby w a b k) s = .next (faulted s .rangeError) := by
  simp [exec, execSbOffsetby, validDigits_pair_eq_false h, answer_error]

theorem exec_sbCmp_invalid (h : ¬IsDigits (digitCount w) a ∨ ¬IsDigits (digitCount w) b) (s : State) :
    exec (.sbCmp w a b) s = .next (faulted s .rangeError) := by
  simp [exec, execSbCmp, validDigits_pair_eq_false h, answer_error]

theorem exec_sbDiff_invalid (h : ¬IsDigits (digitCount w) a ∨ ¬IsDigits (digitCount w) b) (s : State) :
    exec (.sbDiff w a b) s = .next (faulted s .rangeError) := by
  simp [exec, execSbDiff, validDigits_pair_eq_false h, answer_error]

theorem exec_dsAddi_invalid (h : ¬IsDigits 4 a) (n : BitVec 32) (s : State) :
    exec (.dsAddi a n) s = .next (faulted s .rangeError) := by
  simp [exec, execDsAddi, validDigits_eq_false h, answer_error]

theorem exec_dsSubi_invalid (h : ¬IsDigits 4 a) (n : BitVec 32) (s : State) :
    exec (.dsSubi a n) s = .next (faulted s .rangeError) := by
  simp [exec, execDsSubi, validDigits_eq_false h, answer_error]

theorem exec_rgContains_invalid (h : ¬IsDigits 4 a ∨ ¬IsDigits 4 b ∨ ¬IsDigits 4 x) (s : State) :
    exec (.rgContains a b x) s = .next (faulted s .rangeError) := by
  have hv : (validDigits 4 a && validDigits 4 b && validDigits 4 x) = false :=
    Bool.and_eq_false_iff.2 ((or_assoc.2 h).imp validDigits_pair_eq_false validDigits_eq_false)
  simp [exec, execRgContains, hv, answer_error]

theorem exec_rgCovered_invalid (h : ¬IsDigits 4 a ∨ ¬IsDigits 4 b) (map : List Nat) (s : State) :
    exec (.rgCovered a b map) s = .next (faulted s .rangeError) := by
  simp [exec, execRgCovered, validDigits_pair_eq_false h, answer_error]

theorem exec_csCompute_invalid (h : ¬IsDigits 4 a) (p : Frame) (s : State) :
    exec (.csCompute a p) s = .next (faulted s .rangeError) := by
  simp [exec, execCsCompute, validDigits_eq_false h, answer_error]

theorem exec_csVerify_invalid (h : ¬IsDigits 4 a) (p : Frame) (c : Byte) (s : State) :
    exec (.csVerify a p c) s = .next (faulted s .rangeError) := by
  simp [exec, execCsVerify, validDigits_eq_false h, answer_error]

/-- The device-id is checked first, with the same fault (R211). -/
theorem exec_dxMkrq1_invalid (h : ¬IsDigits 4 a ∨ ¬IsDigits 4 b) (dev : Byte) (s : State) :
    exec (.dxMkrq1 dev a b) s = .next (faulted s .rangeError) := by
  simp [exec, execDxMkrq1, validDigits_pair_eq_false h, answer_error]

/-- The device-id is checked first, with the same fault, and the length of the frame last (R212). -/
theorem exec_dxMkdt1_invalid (h : ¬IsDigits 4 a) (dev : Byte) (p : Frame) (s : State) :
    exec (.dxMkdt1 dev a p) s = .next (faulted s .rangeError) := by
  simp [exec, execDxMkdt1, validDigits_eq_false h, answer_error]

/-- The device-id is checked first, with the same fault, and the slot last, so a busy slot does not show (R224). -/
theorem exec_rqSendrRead_invalid (h : ¬IsDigits 4 a ∨ ¬IsDigits 4 b) (dev : Byte) (t : Timeout) (s : State) :
    exec (.rqSendrRead dev a b t) s = .next (faulted s .rangeError) := by
  simp [exec, execRqSendrRead, validDigits_pair_eq_false h, raiseFault_eq_faulted]

end InvalidOperand

/-! ### What an adder operation answers on valid operands (R102 to R111) -/

section ValidOperand

variable {w : Width} {a b : Digits}

/-- R102: the one check is that of the range. -/
theorem exec_sbFromint (w : Width) (n : BitVec 32) (s : State) :
    exec (.sbFromint w n) s =
      if n.toNat < 128 ^ digitCount w then .next (answered s { r := some (digitsOf (digitCount w) n.toNat) })
      else .next (faulted s .rangeError) := by
  simp only [exec, execSbFromint, widthLimit_eq, ← not_lt, ite_not]
  split_ifs
  · exact answer_ok ..
  · exact answer_error ..

theorem exec_sbToint (ha : IsDigits (digitCount w) a) (s : State) :
    exec (.sbToint w a) s = .next (answered s { rn := some (BitVec.ofNat 32 (toInt a)) }) := by
  simp [exec, execSbToint, (validDigits_iff _ a).2 ha, answer_ok]

/-- R103: the result slot holds the whole integer. -/
theorem toNat_ofNat_toInt (ha : IsDigits (digitCount w) a) : (BitVec.ofNat 32 (toInt a)).toNat = toInt a := by
  rw [BitVec.toNat_ofNat, Nat.mod_eq_of_lt ((toInt_lt ha).trans (digitCount_pow_lt w))]

theorem exec_sbTobytes (ha : IsDigits (digitCount w) a) (s : State) :
    exec (.sbTobytes w a) s = .next (answered s { rbuf := some a }) := by
  simp [exec, execSbTobytes, (validDigits_iff _ a).2 ha, answer_ok]

theorem exec_sbFrombytes (ha : IsDigits (digitCount w) a) (s : State) :
    exec (.sbFrombytes w a) s = .next (answered s { r := some a }) := by
  simp [exec, execSbFrombytes_eq, (validDigits_iff _ a).2 ha, answer_ok]

theorem exec_sbOffsetby_eq_offsetBy (ha : IsDigits (digitCount w) a) (hb : IsDigits (digitCount w) b) (k : BitVec 16)
    (s : State) :
    exec (.sbOffsetby w a b k) s =
      .next ((offsetBy k.toNat a b).elim (faulted s .rangeError) fun r => answered s { r := some r }) := by
  simp only [exec, execSbOffsetby, (validDigits_iff _ a).2 ha, (validDigits_iff _ b).2 hb]
  cases offsetBy k.toNat a b <;> rfl

/-- R106, R108 (b): the loop is one base-128 sum, and it faults exactly when the sum does not fit. -/
theorem exec_sbOffsetby (ha : IsDigits (digitCount w) a) (hb : IsDigits (digitCount w) b) (k : BitVec 16) (s : State) :
    exec (.sbOffsetby w a b k) s =
      if toInt a + k.toNat * toInt b < 128 ^ digitCount w then
        .next (answered s { r := some (digitsOf (digitCount w) (toInt a + k.toNat * toInt b)) })
      else .next (faulted s .rangeError) := by
  rw [exec_sbOffsetby_eq_offsetBy ha hb, offsetBy_eq ha hb]
  split_ifs <;> rfl

/-- R107: one add is the chain of cells, and it faults when a carry leaves the leftmost one. -/
theorem exec_sbOffsetby_one (ha : IsDigits (digitCount w) a) (hb : IsDigits (digitCount w) b) (s : State) :
    exec (.sbOffsetby w a b 1) s =
      if carryOut a b 0 = 0 then .next (answered s { r := some (addDigits a b).1 })
      else .next (faulted s .rangeError) := by
  have hone : offsetBy 1 a b = if (addDigits a b).2 then none else some (addDigits a b).1 := rfl
  rw [exec_sbOffsetby_eq_offsetBy ha hb, show (1 : BitVec 16).toNat = 1 by rfl, hone, carryOut, List.drop_zero,
    List.drop_zero]
  cases (addDigits a b).2 <;> rfl

theorem exec_sbCmp (ha : IsDigits (digitCount w) a) (hb : IsDigits (digitCount w) b) (s : State) :
    exec (.sbCmp w a b) s = .next (answered s
      { rc := some (if toInt a = toInt b then 0 else if toInt a < toInt b then 1 else 2) }) := by
  simp [exec, execSbCmp, (validDigits_iff _ a).2 ha, (validDigits_iff _ b).2 hb, compareDigits_eq ha hb, answer_ok]

theorem exec_sbDiff (ha : IsDigits (digitCount w) a) (hb : IsDigits (digitCount w) b) (s : State) :
    exec (.sbDiff w a b) s =
      .next (answered s { r := some (digitsOf (digitCount w) (magnitude (toInt a) (toInt b))) }) := by
  simp [exec, execSbDiff, (validDigits_iff _ a).2 ha, (validDigits_iff _ b).2 hb, answer_ok]

end ValidOperand

/-! ### The statements of this family -/

/-- Settles O18: the digits of the model are the shifts and masks of R102. -/
theorem sbFromintAnswersDigits : Obligations.SbFromintAnswersDigits := by
  intro w n s
  rw [two_pow_seven_mul, exec_sbFromint, digitsOf_eq_map]
  exact ⟨fun h => if_pos h, fun h => if_neg (Nat.not_lt.2 h)⟩

/-- Settles O19: `toInt` is the weighted sum, and the result slot holds it whole. -/
theorem sbTointAnswersWeightedSum : Obligations.SbTointAnswersWeightedSum := by
  refine fun w a s => ⟨fun ha => ⟨BitVec.ofNat 32 (toInt a), ?_, toNat_ofNat_toInt ha, ?_, exec_sbToint ha s⟩,
    fun ha => exec_sbToint_invalid ha s⟩
  · rw [toNat_ofNat_toInt ha, toInt_eq_sum ha]
  · rw [toNat_ofNat_toInt ha, two_pow_seven_mul]
    exact toInt_lt ha

/-- Settles O20: the two operations make the same check and copy the same bytes. -/
theorem sbByteConversionsCopy : Obligations.SbByteConversionsCopy := fun _ _ s =>
  ⟨fun ha => ⟨exec_sbTobytes ha s, exec_sbFrombytes ha s⟩,
   fun ha => ⟨exec_sbTobytes_invalid ha s, exec_sbFrombytes_invalid ha s⟩⟩

/-- Settles O21: `toInt` and `digitsOf` are inverse on the range of the width. -/
theorem sevenBitRoundTrips : Obligations.SevenBitRoundTrips := by
  intro w
  simp only [two_pow_seven_mul]
  constructor
  · intro n hn
    have hv := digitsOf_isDigits (digitCount w) n.toNat
    refine ⟨_, hv, fun s => ⟨?_, ?_, exec_sbTobytes hv s⟩⟩
    · rw [exec_sbFromint, if_pos hn]
    · rw [exec_sbToint hv, toInt_digitsOf_of_lt hn, BitVec.ofNat_toNat, BitVec.setWidth_eq]
  · intro v hv
    refine ⟨_, fun s => ⟨exec_sbToint hv s, ?_, exec_sbTobytes hv s, exec_sbFrombytes hv s⟩⟩
    rw [exec_sbFromint, toNat_ofNat_toInt hv, if_pos (toInt_lt hv), ← eq_digitsOf hv rfl]

/-- Settles O22: `k` adds are the sum with `k` times the addend, and so are `k` adds and one more. -/
theorem sbOffsetbyIsBase128Addition : Obligations.SbOffsetbyIsBase128Addition := by
  intro w a b k s
  simp only [two_pow_seven_mul]
  refine ⟨fun ha hb => ⟨fun hfits => ?_, fun hbig => ?_⟩,
    fun h => exec_sbOffsetby_invalid (not_and_or.1 h) k s⟩
  · have hr := digitsOf_isDigits (digitCount w) (toInt a + k.toNat * toInt b)
    have hsum := toInt_digitsOf_of_lt hfits
    refine ⟨_, hr, hsum, ?_, fun hk => ?_⟩
    · rw [exec_sbOffsetby ha hb, if_pos hfits]
    · have hk1 : (k + 1).toNat = k.toNat + 1 := by bv_omega
      have hone : toInt a + (k.toNat + 1) * toInt b = toInt a + k.toNat * toInt b + 1 * toInt b := by ring
      rw [exec_sbOffsetby ha hb, exec_sbOffsetby hr hb, hsum, hk1, hone]
      rfl
  · rw [exec_sbOffsetby ha hb, if_neg (Nat.not_lt.2 hbig)]

/-- Settles O23: the carries are those of the adds of the trailing digits. -/
theorem digitCellsChainIntoTheAdder : Obligations.DigitCellsChainIntoTheAdder := by
  refine fun w a b s ha hb =>
    ⟨carryOut a b, carryOut_length ha, fun i hi => carryOut_eq ha hb hi, fun h => ?_, fun h => ?_⟩
  · rw [exec_sbOffsetby_one ha hb, if_pos h, addDigits_digits ha hb]
  · rw [exec_sbOffsetby_one ha hb, if_neg (by omega)]

/-- Settles O24: the verdict is that of the integers, and the first digit that differs orders them. -/
theorem sbCmpOrdersLikeIntegers : Obligations.SbCmpOrdersLikeIntegers := by
  refine fun w a b s => ⟨fun ha hb => ?_, fun h => exec_sbCmp_invalid (not_and_or.1 h) s⟩
  rw [exec_sbCmp ha hb]
  refine ⟨?_, fun i hi hsame => ⟨fun hlt => ?_, fun hgt => ?_⟩, rfl⟩
  · rintro rfl
    rw [if_pos rfl]
  · have h := toInt_lt_of_first_difference ha hb hi hsame hlt
    rw [if_neg h.ne, if_pos h]
  · have h := toInt_lt_of_first_difference hb ha hi (fun j hj => (hsame j hj).symm) hgt
    rw [if_neg h.ne', if_neg h.not_gt]

/-- Settles O25: the magnitude fits the width and does not depend on the order of the operands. -/
theorem sbDiffAnswersMagnitude : Obligations.SbDiffAnswersMagnitude := by
  refine fun w a b s => ⟨fun ha hb => ⟨_, digitsOf_isDigits .., ?_, exec_sbDiff ha hb s, ?_⟩,
    fun h => exec_sbDiff_invalid (not_and_or.1 h) s⟩
  · rw [toInt_digitsOf_of_lt (magnitude_lt (toInt_lt ha) (toInt_lt hb)), magnitude_eq_natAbs]
  · rw [exec_sbDiff hb ha, magnitude_comm]

/-- Settles O26: each operation refuses the operand, and those that check something before it raise the same fault. -/
theorem invalidOperandIsRangeError : Obligations.InvalidOperandIsRangeError := fun _ _ _ _ s =>
  ⟨fun h => ⟨exec_sbToint_invalid h s, exec_sbTobytes_invalid h s⟩,
   fun h => ⟨fun k => exec_sbOffsetby_invalid h k s, exec_sbCmp_invalid h s, exec_sbDiff_invalid h s⟩,
   fun h => ⟨fun n => ⟨exec_dsAddi_invalid h n s, exec_dsSubi_invalid h n s⟩,
     fun p => ⟨exec_csCompute_invalid h p s, fun c => exec_csVerify_invalid h p c s,
       fun dev => exec_dxMkdt1_invalid h dev p s⟩⟩,
   fun h => ⟨fun map => exec_rgCovered_invalid h map s,
     fun dev => ⟨exec_dxMkrq1_invalid h dev s, fun t => exec_rqSendrRead_invalid h dev t s⟩⟩,
   fun h => exec_rgContains_invalid h s⟩

end Sys2Proof.Machine

/-! PROOFS of family 41_address_size.md: what the size arithmetic and the region queries answer on valid operands; then the
statements of this family. What they answer on an invalid operand is among the lemmas of 40_sevenbit.md. -/

namespace Sys2Proof.Machine

/-! ### Sizes plus and minus an integer (R123, R124) -/

section SizeArithmetic

variable {a : Digits}

/-- The bound of four digits, as a power of the base. -/
theorem two_pow_28_eq : 2 ^ 28 = 128 ^ 4 := two_pow_seven_mul 4

/-- R123: the one check left is that of the range. -/
theorem exec_dsAddi (ha : IsDigits 4 a) (n : BitVec 32) (s : State) :
    exec (.dsAddi a n) s =
      if toInt a + n.toNat < 2 ^ 28 then .next (answered s { r := some (digitsOf 4 (toInt a + n.toNat)) })
      else .next (faulted s .rangeError) := by
  simp only [exec, execDsAddi, addressLimit, (validDigits_iff 4 a).2 ha, Bool.not_true, Bool.false_eq_true, if_false,
    ← not_lt, ite_not]
  split_ifs
  · exact answer_ok ..
  · exact answer_error ..

/-- R124: the one check left is that the difference is not negative. -/
theorem exec_dsSubi (ha : IsDigits 4 a) (n : BitVec 32) (s : State) :
    exec (.dsSubi a n) s =
      if n.toNat ≤ toInt a then .next (answered s { r := some (digitsOf 4 (toInt a - n.toNat)) })
      else .next (faulted s .rangeError) := by
  simp only [exec, execDsSubi, (validDigits_iff 4 a).2 ha, Bool.not_true, Bool.false_eq_true, if_false,
    ← not_le, ite_not]
  split_ifs
  · exact answer_ok ..
  · exact answer_error ..

/-- R123: adding an integer is one add of its digits. -/
theorem exec_dsAddi_eq_sbOffsetby {b : Digits} {n : BitVec 32} (ha : IsDigits 4 a) (hb : IsDigits 4 b)
    (hn : toInt b = n.toNat) (s : State) : exec (.dsAddi a n) s = exec (.sbOffsetby .w28 a b 1) s := by
  have hone : (1 : BitVec 16).toNat * toInt b = n.toNat := (Nat.one_mul _).trans hn
  rw [exec_dsAddi ha, exec_sbOffsetby (w := .w28) ha hb, hone, two_pow_28_eq]
  rfl

end SizeArithmetic

/-! ### Regions (R125 to R127, R53) -/

section Regions

variable {a b x : Digits} {map : List Nat}

theorem regionOk_iff : regionOk a b = true ↔ regionEnd a b < addressLimit := decide_eq_true_iff

theorem regionOk_eq_false (h : ¬regionEnd a b < addressLimit) : regionOk a b = false :=
  Bool.eq_false_iff.2 (mt regionOk_iff.1 h)

/-- R127: the scan of `n` keys from `start` on looks for every address of the half-open interval. -/
theorem covers_iff {keys : List Nat} {start n : Nat} :
    covers keys start n = true ↔ ∀ k, start ≤ k → k < start + n → k ∈ keys := by
  induction n generalizing start with
  | zero => exact iff_of_true rfl fun k hle hlt => absurd hlt (Nat.not_lt.2 hle)
  | succ n ih =>
    simp only [covers, Bool.and_eq_true, List.contains_iff_mem, ih]
    constructor
    · rintro ⟨hhead, htail⟩ k hle hlt
      obtain rfl | hgt := Nat.eq_or_lt_of_le hle
      · exact hhead
      · exact htail k hgt (by omega)
    · exact fun h => ⟨h start le_rfl (by omega), fun k hle hlt => h k (by omega) (by omega)⟩

theorem exec_rgContains (ha : IsDigits 4 a) (hb : IsDigits 4 b) (hx : IsDigits 4 x)
    (hend : regionEnd a b < addressLimit) (s : State) :
    exec (.rgContains a b x) s =
      .next (answered s { rb := some (decide (toInt a ≤ toInt x ∧ toInt x < regionEnd a b)) }) := by
  simp [exec, execRgContains, (validDigits_iff 4 _).2, ha, hb, hx, regionOk_iff.2 hend, answer_ok]

theorem exec_rgCovered (ha : IsDigits 4 a) (hb : IsDigits 4 b) (hend : regionEnd a b < addressLimit) (s : State) :
    exec (.rgCovered a b map) s = .next (answered s { rb := some (covers map (toInt a) (toInt b)) }) := by
  simp [exec, execRgCovered, (validDigits_iff 4 _).2, ha, hb, regionOk_iff.2 hend, answer_ok]

/-- The operands are checked before the end (R125), with the same fault, so they need no hypothesis. -/
theorem exec_rgContains_inexpressible (h : ¬regionEnd a b < addressLimit) (s : State) :
    exec (.rgContains a b x) s = .next (faulted s .rangeError) := by
  simp [exec, execRgContains, regionOk_eq_false h, answer_error]

theorem exec_rgCovered_inexpressible (h : ¬regionEnd a b < addressLimit) (s : State) :
    exec (.rgCovered a b map) s = .next (faulted s .rangeError) := by
  simp [exec, execRgCovered, regionOk_eq_false h, answer_error]

end Regions

/-! ### The statements of this family -/

/-- Settles O27: the answers are the digits of the sum and of the difference, each of which fits 28 bits. -/
theorem deviceSizeArithmetic : Obligations.DeviceSizeArithmetic := by
  refine fun a n s => ⟨fun ha => ⟨fun hfits => ?_, fun hbig => ?_, fun b hb hn => exec_dsAddi_eq_sbOffsetby ha hb hn s,
    fun hle => ?_, fun hlt => ?_⟩, fun ha => ⟨exec_dsAddi_invalid ha n s, exec_dsSubi_invalid ha n s⟩⟩
  · refine ⟨_, digitsOf_isDigits .., toInt_digitsOf_of_lt (two_pow_28_eq ▸ hfits), ?_⟩
    rw [exec_dsAddi ha, if_pos hfits]
  · rw [exec_dsAddi ha, if_neg (Nat.not_lt.2 hbig)]
  · have hfits : toInt a - n.toNat < 128 ^ 4 := (Nat.sub_le ..).trans_lt (toInt_lt ha)
    refine ⟨_, digitsOf_isDigits .., ?_, by rw [exec_dsSubi ha, if_pos hle]⟩
    rw [toInt_digitsOf_of_lt hfits, Nat.sub_add_cancel hle]
  · rw [exec_dsSubi ha, if_neg (Nat.not_le.2 hlt)]

/-- Settles O28: the scan is the coverage of the interval, and each of the checks that can fail raises the same fault. -/
theorem regionQueries : Obligations.RegionQueries := by
  refine fun a b x map s => ⟨fun ha hb hend => ⟨fun hx => exec_rgContains ha hb hx hend s, fun hall => ?_,
    fun k hle hlt hmiss => ?_⟩, fun h => ?_, fun hx => exec_rgContains_invalid (.inr (.inr hx)) s⟩
  · rw [exec_rgCovered ha hb hend, covers_iff.2 hall]
  · have hgap : covers map (toInt a) (toInt b) = false :=
      Bool.eq_false_iff.2 fun hcov => hmiss (covers_iff.1 hcov k hle hlt)
    rw [exec_rgCovered ha hb hend, hgap]
  · obtain ha | hb | hend := not_and_or.1 h |>.imp_right not_and_or.1
    · exact ⟨exec_rgContains_invalid (.inl ha) s, exec_rgCovered_invalid (.inl ha) map s⟩
    · exact ⟨exec_rgContains_invalid (.inr (.inl hb)) s, exec_rgCovered_invalid (.inr hb) map s⟩
    · exact ⟨exec_rgContains_inexpressible hend s, exec_rgCovered_inexpressible hend s⟩

end Sys2Proof.Machine

/-! PROOFS of family 42_checksum.md: the checksum as the complement of the plain sum modulo 128 and the law it is found by,
what the two operations answer; then the statements of this family. -/

namespace Sys2Proof.Machine

/-! ### The checksum function (R8, R135, R137, R139) -/

section ChecksumLaw

variable {a p : List Byte}

theorem byteSum_eq_sum (l : List Byte) : byteSum l = (l.map BitVec.toNat).sum := by
  induction l with
  | nil => rfl
  | cons b bs ih => simp [byteSum, ih]

theorem plainSum_eq (a p : List Byte) : plainSum a p = byteSum a + byteSum p := by
  rw [plainSum, byteSum_eq_sum, byteSum_eq_sum]

/-- R137 (a): one formula for both branches of R135. -/
theorem checksum_eq_complement (a p : List Byte) : checksum a p = (128 - plainSum a p % 128) % 128 := by
  simp only [checksum, plainSum_eq]
  split_ifs <;> omega

theorem checksum_lt (a p : List Byte) : checksum a p < 128 := by
  rw [checksum_eq_complement]
  exact Nat.mod_lt _ (by decide)

/-- R139: below 128, completing the sum to a multiple of 128 and being the checksum are the same. -/
theorem checksum_eq_iff {n : Nat} (hn : n < 128) : checksum a p = n ↔ (n + plainSum a p) % 128 = 0 := by
  rw [checksum_eq_complement]
  omega

end ChecksumLaw

/-! ### What the checksum engine answers (R136, R138) -/

section ChecksumEngine

variable {a : Digits} {p : Frame} {c : Byte}

theorem all_isData_iff (p : List Byte) : p.all isData = true ↔ IsClean p := by
  simp [IsClean, isData]

theorem all_isData_eq_false (h : ¬IsClean p) : p.all isData = false :=
  Bool.eq_false_iff.2 (mt (all_isData_iff p).1 h)

theorem isData_eq_false (h : ¬c.toNat < 128) : isData c = false :=
  Bool.eq_false_iff.2 (mt (isData_iff c).1 h)

theorem exec_csCompute (ha : IsDigits 4 a) (hp : IsClean p) (s : State) :
    exec (.csCompute a p) s = .next (answered s { rcs := some (BitVec.ofNat 7 (checksum a p)) }) := by
  simp only [exec, execCsCompute, (validDigits_iff 4 a).2 ha, (all_isData_iff p).2 hp]
  exact answer_ok ..

/-- R136: the result slot holds the whole checksum. -/
theorem toNat_ofNat_checksum (a p : List Byte) : (BitVec.ofNat 7 (checksum a p)).toNat = checksum a p := by
  rw [BitVec.toNat_ofNat, Nat.mod_eq_of_lt (checksum_lt a p)]

theorem exec_csCompute_unclean (h : ¬IsClean p) (s : State) :
    exec (.csCompute a p) s = .next (faulted s .rangeError) := by
  simp [exec, execCsCompute, all_isData_eq_false h, answer_error]

/-- R138: the one check left is that the reported byte is the checksum. -/
theorem exec_csVerify (ha : IsDigits 4 a) (hp : IsClean p) (hc : c.toNat < 128) (s : State) :
    exec (.csVerify a p c) s =
      if checksum a p = c.toNat then .next (answered s { rb := some true })
      else .next (faulted s .checksumMismatch) := by
  simp only [exec, execCsVerify, (validDigits_iff 4 a).2 ha, (all_isData_iff p).2 hp, (isData_iff c).2 hc,
    Bool.and_self, Bool.not_true, Bool.false_eq_true, if_false, ne_eq, ite_not]
  split_ifs
  · exact answer_ok ..
  · exact answer_error ..

theorem exec_csVerify_unclean (h : ¬IsClean p ∨ ¬c.toNat < 128) (s : State) :
    exec (.csVerify a p c) s = .next (faulted s .rangeError) := by
  have hv : (p.all isData && isData c) = false :=
    Bool.and_eq_false_iff.2 (h.imp all_isData_eq_false isData_eq_false)
  simp [exec, execCsVerify, Bool.and_assoc, hv, answer_error]

end ChecksumEngine

/-! ### The statements of the family -/

/-- Settles O29: the answer is the checksum, and R139 finds it and nothing else below 128. -/
theorem csComputeAnswersTheComplement : Obligations.CsComputeAnswersTheComplement := by
  refine fun a p s => ⟨fun ha hp => ⟨BitVec.ofNat 7 (checksum a p), ?_, exec_csCompute ha hp s, ?_, fun c' hc' => ?_⟩,
    fun h => ?_⟩
  · rw [toNat_ofNat_checksum, checksum_eq_complement]
  · rw [toNat_ofNat_checksum]
    exact (checksum_eq_iff (checksum_lt a p)).1 rfl
  · have hsame : checksum a p = c'.toNat := (checksum_eq_iff c'.isLt).2 hc'
    rw [hsame, BitVec.ofNat_toNat, BitVec.setWidth_eq]
  · obtain ha | hp := not_and_or.1 h
    · exact exec_csCompute_invalid ha p s
    · exact exec_csCompute_unclean hp s

/-- Settles O30: by R139 the comparison with the checksum is the test of the sum. -/
theorem csVerifyChecksTheSum : Obligations.CsVerifyChecksTheSum := by
  refine fun a p c s => ⟨fun ha hp hc => ?_, fun h => ?_⟩
  · have hlaw : checksum a p = c.toNat ↔ (plainSum a p + c.toNat) % 128 = 0 := by
      rw [checksum_eq_iff hc, Nat.add_comm]
    rw [exec_csVerify ha hp hc]
    exact ⟨fun hsum => if_pos (hlaw.2 hsum), fun hsum => if_neg (mt hlaw.1 hsum)⟩
  · obtain ha | hclean := not_and_or.1 h
    · exact exec_csVerify_invalid ha p c s
    · exact exec_csVerify_unclean (not_and_or.1 hclean) s

end Sys2Proof.Machine

/-! PROOFS of family 43_codec_channel_system.md: what the two codec operations answer, the frame of a wire row byte by
byte, and the frames that reach TX; then the statements of this family. -/

namespace Sys2Proof.Machine

/-! ### An answer and a fault are told apart by their response (R26, R260) -/

theorem statusOf_ne_zero (k : FaultKind) : statusOf k ≠ 0 := by cases k <;> decide

theorem answered_inj {s : State} {q r : ResultSlots} : answered s q = answered s r ↔ q = r := by
  refine ⟨fun h => ?_, congrArg _⟩
  simpa [answered] using congrArg State.responses h

theorem faulted_ne_answered (s : State) (k : FaultKind) (r : ResultSlots) : faulted s k ≠ answered s r := by
  intro h
  obtain ⟨hstatus, -⟩ : statusOf k = 0 ∧ Config.undefinedResults s.free = r := by
    simpa [answered, faulted, statusOf] using congrArg State.responses h
  exact statusOf_ne_zero k hstatus

/-- The response tells what a computing operation computed. -/
theorem answer_eq_answered_iff {x : Except FaultKind ResultSlots} {r : ResultSlots} {s : State} :
    answer x s = .next (answered s r) ↔ x = .ok r := by
  cases x with
  | ok q => simp only [answer_ok, Host.Outcome.next.injEq, answered_inj, Except.ok.injEq]
  | error k => simp only [answer_error, Host.Outcome.next.injEq, faulted_ne_answered, reduceCtorEq]

/-! ### What the codec operations answer (R152, R153) -/

section Codec

variable {f : Frame} {m : MidiMessage} {s : State}

theorem exec_mcDecode_eq_answered_iff :
    exec (.mcDecode f) s = .next (answered s { rmsg := some (.midi m) }) ↔ decodeFrame f = .ok m := by
  simp only [exec, execMcDecode, answer_eq_answered_iff]
  cases decodeFrame f <;> simp

theorem exec_mcDecode_of_error {e : FrameError} (h : decodeFrame f = .error e) :
    exec (.mcDecode f) s = .next (faulted s .decodeError) := by
  simp only [exec, execMcDecode, h, answer_error]

theorem encodeChecked_eq_ok_iff :
    encodeChecked m = .ok f ↔ messageValid m = true ∧ variantLength m ≤ Config.frameMax ∧ encodeMessage m = f := by
  simp only [encodeChecked, encodeMessage_length]
  split_ifs <;> simp_all

theorem encodeChecked_invalid (h : messageValid m = false) : encodeChecked m = .error .rangeError := by
  simp [encodeChecked, h]

theorem encodeChecked_too_long (h : messageValid m = true) (hlong : Config.frameMax < variantLength m) :
    encodeChecked m = .error .capacity := by
  simp [encodeChecked, encodeMessage_length, h, hlong]

theorem exec_mcEncode_eq_answered_iff :
    exec (.mcEncode m) s = .next (answered s { rbuf := some f }) ↔ encodeChecked m = .ok f := by
  simp only [exec, execMcEncode, answer_eq_answered_iff]
  cases encodeChecked m <;> simp

theorem exec_mcEncode_of_error {k : FaultKind} (h : encodeChecked m = .error k) :
    exec (.mcEncode m) s = .next (faulted s k) := by
  simp only [exec, execMcEncode, h, answer_error]

/-- A valid message and its frame, when that fits, stand for each other on the command port. -/
theorem wirePair_of_valid (hm : messageValid m = true) (hfits : variantLength m ≤ Config.frameMax)
    (hf : encodeMessage m = f) : wirePair f m := fun _ =>
  ⟨exec_mcDecode_eq_answered_iff.2 ((decodeFrame_eq_ok_iff f m).2 ⟨hm, hf⟩),
   exec_mcEncode_eq_answered_iff.2 (encodeChecked_eq_ok_iff.2 ⟨hm, hfits, hf⟩)⟩

/-- The fields of a wire row have the widths of the message's ranges, so only the bytes of its frame are left to see. -/
theorem wirePair_row (i : Instr) (hi : i.wellFormed = true) (hm : messageOfRow i = some m) (hf : encodeMessage m = f) :
    wirePair f m :=
  have hrow := isRowOf_of_wellFormed hi hm
  wirePair_of_valid hrow.valid hrow.fits hf

end Codec

/-! ### The bytes of a frame, bit by bit (R75, R77) -/

theorem toNat_append_eq {m n : Nat} (x : BitVec m) (y : BitVec n) : (x ++ y).toNat = x.toNat * 2 ^ n + y.toNat := by
  rw [BitVec.toNat_append, ← Nat.shiftLeft_add_eq_or_of_lt y.isLt, Nat.shiftLeft_eq]

/-- `kkkknnnn`. -/
theorem append_eq_statusByte (k n : BitVec 4) : k ++ n = statusByte k.toNat n.toNat := by
  apply BitVec.eq_of_toNat_eq
  rw [toNat_append_eq, statusByte, toNat_byteOf (by omega)]
  omega

/-- `0ddddddd`. -/
theorem zero_append_eq_byteOf (x : BitVec 7) : 0#1 ++ x = byteOf x.toNat := by
  apply BitVec.eq_of_toNat_eq
  rw [toNat_append_eq, toNat_byteOf (by omega), BitVec.toNat_ofNat]
  omega

/-- `0tttvvvv`. -/
theorem zero_append_append_eq_byteOf (t : BitVec 3) (v : BitVec 4) : 0#1 ++ t ++ v = byteOf (16 * t.toNat + v.toNat) := by
  apply BitVec.eq_of_toNat_eq
  rw [toNat_append_eq, toNat_append_eq, toNat_byteOf (by omega), BitVec.toNat_ofNat]
  omega

/-- The least significant 7 bits of a 14-bit field come first (R58). -/
theorem toNat_append_eq_pair14 (x y : BitVec 7) : (y ++ x).toNat = pair14 (x.toNat, y.toNat) := toNat_append_eq y x

theorem encodeMessage_pitchBend_append (c : Nat) (x y : BitVec 7) :
    encodeMessage (.pitchBend c (((y ++ x).toNat : Int) - 8192)) =
      [statusByte 0xE c, byteOf x.toNat, byteOf y.toNat] := by
  have hu : (((y ++ x).toNat : Int) - 8192 + 8192).toNat = pair14 (x.toNat, y.toNat) := by
    rw [toNat_append_eq_pair14]
    omega
  simp only [encodeMessage, hu, pair14_mod x.isLt, pair14_div x.isLt]

theorem encodeMessage_songPositionPointer_append (x y : BitVec 7) :
    encodeMessage (.songPositionPointer (y ++ x).toNat) = [0xF2, byteOf x.toNat, byteOf y.toNat] := by
  simp only [encodeMessage, toNat_append_eq_pair14, pair14_mod x.isLt, pair14_div x.isLt]

/-! ### The frames that reach TX (R42, R66) -/

/-- A frame of the wire formats that fits the TX path. -/
def Sendable (f : Frame) : Prop := frameWellFormed f = true ∧ f.length ≤ Config.frameMax

theorem sendable_of_valid {m : MidiMessage} (hm : messageValid m = true) (hfits : variantLength m ≤ Config.frameMax) :
    Sendable (encodeMessage m) := by
  refine ⟨?_, encodeMessage_length m ▸ hfits⟩
  rw [← decodeFrame_isOk, decodeFrame_encodeMessage hm, isOk_ok]

theorem sendable_of_encodeChecked {m : MidiMessage} {f : Frame} (h : encodeChecked m = .ok f) : Sendable f := by
  obtain ⟨hm, hfits, rfl⟩ := encodeChecked_eq_ok_iff.1 h
  exact sendable_of_valid hm hfits

/-- R211: digits, and a checksum below 128, make a clean payload of fixed length. -/
theorem sendable_readRequestFor {dev : Byte} {a b : Digits} (hdev : isData dev = true) (ha : validDigits 4 a = true)
    (hb : validDigits 4 b = true) : Sendable (encodeMessage (readRequestFor dev a b)) := by
  simp only [validDigits, Bool.and_eq_true, decide_eq_true_eq] at ha hb
  refine sendable_of_valid ?_ ?_
  · simp only [readRequestFor, messageValid_readRequest, hdev, ha, hb, isData_byteOf (checksum_lt a b), Bool.and_self]
  · rw [readRequestFor, variantLength_readRequest dev _ ha.1 hb.1]
    exact seventeen_le_frameMax

theorem sendable_identityRequest {dev : Byte} (hdev : isData dev = true) :
    Sendable (encodeMessage (identityRequestMessage dev)) := by
  refine sendable_of_valid ((messageValid_identityRequest dev).trans hdev) ?_
  rw [variantLength_identityRequest]
  exact le_trans (by decide) seventeen_le_frameMax

/-- TX of `t` holds frames of `s` and sendable ones, no others. -/
def AddsSendable (s t : State) : Prop := ∀ f ∈ t.tx, f ∈ s.tx ∨ Sendable f

section Tx

variable {s t : State}

theorem addsSendable_of_tx_eq (h : t.tx = s.tx) : AddsSendable s t := fun _ hf => .inl (h ▸ hf)

theorem addsSendable_of_tx_append {f : Frame} (h : t.tx = s.tx ++ [f]) (hf : Sendable f) : AddsSendable s t := by
  intro g hg
  rw [h, List.mem_append, List.mem_singleton] at hg
  rcases hg with hg | rfl
  · exact .inl hg
  · exact .inr hf

theorem setSlot_tx (s : State) (sh : Shape) (sl : Slot) : (setSlot s sh sl).tx = s.tx := by cases sh <;> rfl

theorem resolve_tx (sh : Shape) (r : ResultRecord) (s : State) : (resolve sh r s).tx = s.tx := by
  obtain ⟨-, -, -, -, htx, -⟩ := resolve_spec sh r s
  exact htx

theorem receiveChunk_tx (cap : Nat) (sh : Shape) (c : Chunk) (b : Byte) (s : State) :
    (receiveChunk cap sh c b s).tx = s.tx := by
  rcases receiveChunk_cases cap sh c b s with ⟨-, h⟩ | ⟨-, h⟩ | ⟨-, -, h⟩ | ⟨-, -, -, h⟩ | ⟨-, -, -, h⟩ <;> rw [h]
  · exact resolve_tx ..
  · rfl
  · rfl
  · exact resolve_tx ..
  · exact setSlot_tx ..

theorem deliver_tx (cap : Nat) (d : DeviceMessage) (s : State) : (deliver cap d s).tx = s.tx := by
  rcases deliver_cases cap d s with ⟨_, _, _, _, -, -, h⟩ | ⟨_, -, -, h⟩ | h <;> rw [h]
  · exact receiveChunk_tx ..
  · exact resolve_tx ..
  · rfl

theorem receiveMessage_tx (cap : Nat) (m : MidiMessage) (s : State) : (receiveMessage cap m s).tx = s.tx := by
  unfold receiveMessage
  split
  · rfl
  · exact deliver_tx ..

theorem receiveFrame_tx (cap : Nat) (f : Frame) (s : State) : (receiveFrame cap f s).tx = s.tx := by
  rcases receiveFrame_cases cap f s with h | ⟨_, -, -, h⟩ | ⟨_, _, -, -, h⟩ <;> rw [h]
  · rfl
  · rfl
  · exact deliver_tx ..

theorem tickSlot_tx (sh : Shape) (s : State) : (tickSlot sh s).tx = s.tx := by
  rcases tickSlot_cases sh s with ⟨-, h⟩ | ⟨-, -, h⟩ | ⟨-, -, h⟩ <;> rw [h]
  · exact setSlot_tx ..
  · obtain ⟨r, hr, -⟩ := expire_eq sh (setSlot s sh { slotOf s sh with idle := idleNext (slotOf s sh).idle })
    rw [hr, resolve_tx, setSlot_tx]

theorem answer_tx {r : Except FaultKind ResultSlots} (h : answer r s = .next t) : t.tx = s.tx := by
  rcases answer_cases r s with ⟨slots, -, ha⟩ | ⟨k, -, ha⟩ <;> cases ha.symm.trans h <;> rfl

theorem execRqGet_tx {b : BitVec 1} (h : execRqGet b s = .next t) : t.tx = s.tx := by
  unfold execRqGet at h
  dsimp only at h
  split_ifs at h
  · cases h
    rfl
  · cases h
    rfl
  · split at h
    · cases h
    · cases h
      obtain ⟨⟨-, -, -, htx, -⟩, -⟩ := answerGet_spec s.issued _ s
      exact htx

theorem execRqCancel_tx {b : BitVec 1} (h : execRqCancel b s = .next t) : t.tx = s.tx := by
  unfold execRqCancel at h
  dsimp only at h
  split_ifs at h <;> cases h
  · rfl
  · exact resolve_tx ..

theorem execSrRead_tx {srn : BitVec 3} (h : execSrRead srn s = .next t) : t.tx = s.tx := by
  unfold execSrRead at h
  split at h <;> cases h <;> rfl

theorem execRqSendu_addsSendable {m : MidiMessage} (h : execRqSendu m s = .next t) : AddsSendable s t := by
  unfold execRqSendu at h
  split at h <;> cases h
  · exact addsSendable_of_tx_eq rfl
  · exact addsSendable_of_tx_append rfl (sendable_of_encodeChecked ‹_›)

theorem execRqSendrRead_addsSendable {dev : Byte} {a b : Digits} {tmo : Timeout}
    (h : execRqSendrRead dev a b tmo s = .next t) : AddsSendable s t := by
  unfold execRqSendrRead at h
  split_ifs at h with hdev hab hreg hto hbusy <;> cases h
  case neg =>
    simp only [Bool.not_eq_true', Bool.not_eq_false, Bool.and_eq_true] at hdev hab
    exact addsSendable_of_tx_append rfl (sendable_readRequestFor hdev hab.1 hab.2)
  all_goals exact addsSendable_of_tx_eq rfl

theorem execRqSendrIdent_addsSendable {dev : Byte} {tmo : Timeout} (h : execRqSendrIdent dev tmo s = .next t) :
    AddsSendable s t := by
  unfold execRqSendrIdent at h
  split_ifs at h with hdev hto hbusy <;> cases h
  case neg => exact addsSendable_of_tx_append rfl (sendable_identityRequest (by simpa using hdev))
  all_goals exact addsSendable_of_tx_eq rfl

/-- Three operations emit a frame, each after checking what goes into it; every other instruction leaves TX alone. -/
theorem exec_addsSendable {i : Instr} (h : exec i s = .next t) : AddsSendable s t := by
  cases instr_form i with
  | sendu m hi => subst hi; exact execRqSendu_addsSendable h
  | sendrRead dev a b tmo hi => subst hi; exact execRqSendrRead_addsSendable h
  | sendrIdent dev tmo hi => subst hi; exact execRqSendrIdent_addsSendable h
  | computes _ r _ hexec => exact addsSendable_of_tx_eq (answer_tx (hexec s ▸ h))
  | get b hi => subst hi; exact addsSendable_of_tx_eq (execRqGet_tx h)
  | cancel b hi => subst hi; exact addsSendable_of_tx_eq (execRqCancel_tx h)
  | status srn hi => subst hi; exact addsSendable_of_tx_eq (execSrRead_tx h)
  | message f m _ hexec => cases (hexec s).symm.trans h; exact addsSendable_of_tx_eq (receiveMessage_tx ..)
  | device f d _ hexec => cases (hexec s).symm.trans h; exact addsSendable_of_tx_eq (deliver_tx ..)
  | frame f hi => subst hi; cases h; exact addsSendable_of_tx_eq (receiveFrame_tx ..)
  | tick hi =>
    subst hi
    cases h
    exact addsSendable_of_tx_eq ((tickSlot_tx .ident _).trans (tickSlot_tx .read s))

/-- No input but an event adds a frame to TX. -/
theorem step_addsSendable (h : step s = .next t) : AddsSendable s t := by
  cases step_effect h with
  | event e rest _ hin =>
    cases hd : decodeEvent e with
    | ok i =>
      have hadds : AddsSendable (withInputs rest s) t := exec_addsSendable ((step_decoded hin hd).symm.trans h)
      exact hadds
    | error r =>
      cases (step_refused hin hd).symm.trans h
      exact addsSendable_of_tx_eq rfl
  | resetInput => exact nofun
  | takeTx => exact fun _ hf => .inl (List.mem_of_mem_drop hf)
  | idle | takeNotification | takeResponse => exact addsSendable_of_tx_eq rfl

end Tx

/-! ### The statements of this family -/

/-- Settles O12: as functions by the equivalence of the two, and as commands since an answer tells the function's value. -/
theorem codecRoundTrips : Obligations.CodecRoundTrips := by
  refine ⟨fun _ => decodeFrame_encodeMessage, fun f m => (decodeFrame_eq_ok_iff f m).1, fun m f s u h => ?_,
    fun f m s u hlen h => ?_⟩
  · obtain ⟨hm, -, hf⟩ := encodeChecked_eq_ok_iff.1 (exec_mcEncode_eq_answered_iff.1 h)
    exact exec_mcDecode_eq_answered_iff.2 ((decodeFrame_eq_ok_iff f m).2 ⟨hm, hf⟩)
  · obtain ⟨hm, rfl⟩ := (decodeFrame_eq_ok_iff f m).1 (exec_mcDecode_eq_answered_iff.1 h)
    rw [encodeMessage_length] at hlen
    exact exec_mcEncode_eq_answered_iff.2 (encodeChecked_eq_ok_iff.2 ⟨hm, hlen, rfl⟩)

/-- Settles O60: what a step leaves on TX was there before it or is sendable. -/
theorem transmittedFramesAreWellFormed : Obligations.TransmittedFramesAreWellFormed := fun _ _ hs hstep f hf =>
  (step_addsSendable hstep f hf).elim (hs f) id

/-- Settles O7: the frames of the wire formats are those the decoder accepts. -/
theorem mcDecodeAcceptsWellFormedFrames : Obligations.McDecodeAcceptsWellFormedFrames := by
  intro f s
  rw [← decodeFrame_isOk]
  cases hd : decodeFrame f with
  | ok m => exact ⟨fun _ => ⟨m, decodeFrame_valid f m hd, exec_mcDecode_eq_answered_iff.2 hd⟩, nofun⟩
  | error e => exact ⟨nofun, fun _ => exec_mcDecode_of_error hd⟩

/-- Settles O8: each frame is that of the wire row with the same fields. -/
theorem channelVoiceFramesOnTheWire : Obligations.ChannelVoiceFramesOnTheWire := by
  intro n x y
  have hbend : (Instr.pitchBend n (((y ++ x).toNat : Int) - 8192)).wellFormed = true := by
    simp only [Instr.wellFormed, Bool.and_eq_true, decide_eq_true_eq]
    omega
  simp only [append_eq_statusByte, zero_append_eq_byteOf]
  exact ⟨wirePair_row (.noteOff n x y) rfl rfl rfl, wirePair_row (.noteOn n x y) rfl rfl rfl,
    wirePair_row (.polyKeyPressure n x y) rfl rfl rfl,
    fun hx => wirePair_row (.controlChange n x y) (decide_eq_true hx) rfl rfl,
    wirePair_row (.channelMode n .allSoundOff y) rfl rfl rfl,
    wirePair_row (.channelMode n .resetAllControllers y) rfl rfl rfl,
    wirePair_row (.channelMode n .localControl y) rfl rfl rfl,
    wirePair_row (.channelMode n .allNotesOff y) rfl rfl rfl,
    wirePair_row (.channelMode n .omniModeOff y) rfl rfl rfl,
    wirePair_row (.channelMode n .omniModeOn y) rfl rfl rfl,
    wirePair_row (.channelMode n .monoModeOn y) rfl rfl rfl,
    wirePair_row (.channelMode n .polyModeOn y) rfl rfl rfl,
    wirePair_row (.programChange n x) rfl rfl rfl, wirePair_row (.channelPressure n x) rfl rfl rfl,
    wirePair_row (.pitchBend n _) hbend rfl (encodeMessage_pitchBend_append n.toNat x y)⟩

/-- Settles O9: each frame is that of the wire row with the same fields. -/
theorem systemFramesOnTheWire : Obligations.SystemFramesOnTheWire := by
  unfold Obligations.SystemFramesOnTheWire
  simp only [zero_append_append_eq_byteOf, zero_append_eq_byteOf]
  exact ⟨fun t v => wirePair_row (.timeCode t v) rfl rfl rfl,
    fun x y => wirePair_row (.songPositionPointer (y ++ x)) rfl rfl (encodeMessage_songPositionPointer_append x y),
    fun x => wirePair_row (.songSelect x) rfl rfl rfl,
    wirePair_row .tuneRequest rfl rfl rfl, wirePair_row .clock rfl rfl rfl, wirePair_row .start rfl rfl rfl,
    wirePair_row .continueMsg rfl rfl rfl, wirePair_row .stop rfl rfl rfl, wirePair_row .activeSensing rfl rfl rfl,
    wirePair_row .reset rfl rfl rfl⟩

/-- Settles O11: the two checks of the encoder, in their order (R273), and the length of the frame. -/
theorem mcEncodeAnswersOrFaults : Obligations.McEncodeAnswersOrFaults := fun m _ =>
  ⟨fun hm hfits => ⟨encodeMessage m, encodeMessage_length m,
     exec_mcEncode_eq_answered_iff.2 (encodeChecked_eq_ok_iff.2 ⟨hm, hfits, rfl⟩)⟩,
   fun hm hlong => exec_mcEncode_of_error (encodeChecked_too_long hm hlong),
   fun hm => exec_mcEncode_of_error (encodeChecked_invalid hm)⟩

end Sys2Proof.Machine

/-! PROOFS of family 44_codec_sysex.md: the two directions of narrowing, the checksum byte and the frames of the device
messages, what each builder answers; then the statements of this family. -/

namespace Sys2Proof.Machine

/-! ### Narrowing (R205 to R209) -/

section Narrowing

variable {m : MidiMessage} {d : DeviceMessage}

theorem narrow_of_not_isSysEx (h : isSysEx m = false) : narrow m = some (.passthrough m) := by
  cases m
  case sysExUniversalRealtime | sysExUniversalNonRealtime | sysExManufacturer => cases h
  all_goals rfl

theorem narrowsTo_identityRequest (dev : Byte) : narrowsTo (identityRequestMessage dev) (.identityRequest dev) :=
  .inl ⟨dev, rfl, rfl⟩

theorem narrowsTo_identityReply (dev man : Byte) {family number rev : List Byte} (hf : family.length = 2)
    (hn : number.length = 2) (hr : rev.length = 4) :
    narrowsTo (identityReplyMessage dev man family number rev)
      (.identityReply (mkIdentityReply dev man family number rev)) := by
  obtain ⟨f0, f1, rfl⟩ := List.length_eq_two.1 hf
  obtain ⟨n0, n1, rfl⟩ := List.length_eq_two.1 hn
  obtain ⟨r0, r1, r2, r3, rfl⟩ := List.length_eq_four.1 hr
  exact .inr (.inl ⟨dev, man, f0, f1, n0, n1, r0, r1, r2, r3, rfl, rfl⟩)

theorem narrowsTo_readRequest (dev c : Byte) {a b : Digits} (ha : a.length = 4) (hb : b.length = 4) :
    narrowsTo (readRequestMessage dev a b c) (.readRequest dev a b c) :=
  .inr (.inr (.inl ⟨dev, a, b, c, ha, hb, rfl, rfl⟩))

theorem narrowsTo_dataSet (dev c : Byte) {a : Digits} (ha : a.length = 4) (data : List Byte) :
    narrowsTo (dataSetMessage dev a data c) (.dataSet dev a data c) :=
  .inr (.inr (.inr ⟨dev, a, data, c, ha, rfl, rfl⟩))

/-- A message with one of the four written patterns is the message of that pattern, and narrows as such. -/
theorem narrow_of_narrowsTo (h : narrowsTo m d) : narrow m = some d := by
  obtain ⟨dev, rfl, rfl⟩ | ⟨dev, man, f0, f1, n0, n1, r0, r1, r2, r3, rfl, rfl⟩ |
    ⟨dev, a, b, c, ha, hb, rfl, rfl⟩ | ⟨dev, a, data, c, ha, rfl, rfl⟩ := h
  · exact narrow_identityRequest dev
  · exact narrow_identityReply dev man (family := [f0, f1]) (number := [n0, n1]) (rev := [r0, r1, r2, r3]) rfl rfl rfl
  · exact narrow_readRequest dev c ha hb
  · exact narrow_dataSet dev c ha data

/-- A SysEx message that narrows has one of the four patterns: every other payload is refused. -/
theorem exists_narrowsTo_of_narrow (hm : isSysEx m = true) (h : narrow m = some d) : ∃ d', narrowsTo m d' := by
  cases m
  case sysExUniversalRealtime => cases h
  case sysExUniversalNonRealtime dev p =>
    obtain heq | ⟨man, family, number, rev, hf, hn, hr, heq⟩ | hplain := universal_cases dev p
    · exact ⟨_, heq ▸ narrowsTo_identityRequest dev⟩
    · exact ⟨_, heq ▸ narrowsTo_identityReply dev man hf hn hr⟩
    · cases (narrowUniversal_eq_none dev hplain).symm.trans h
  case sysExManufacturer id p =>
    obtain ⟨dev, a, b, c, ha, hb, heq⟩ | ⟨dev, a, data, c, ha, heq⟩ | hplain := manufacturer_cases id p
    · exact ⟨_, heq ▸ narrowsTo_readRequest dev c ha hb⟩
    · exact ⟨_, heq ▸ narrowsTo_dataSet dev c ha data⟩
    · cases (narrowManufacturer_eq_none hplain).symm.trans h
  all_goals cases hm

theorem narrow_eq_none (hm : isSysEx m = true) (h : ∀ d, ¬narrowsTo m d) : narrow m = none := by
  cases hd : narrow m with
  | none => rfl
  | some d =>
    obtain ⟨d', hd'⟩ := exists_narrowsTo_of_narrow hm hd
    exact absurd hd' (h d')

theorem exec_dxNarrow_of_some (h : narrow m = some d) (s : State) :
    exec (.dxNarrow m) s = .next (answered s { rmsg := some (.device d) }) := by
  simp only [exec, execDxNarrow, h, answer_ok]

theorem exec_dxNarrow_of_none (h : narrow m = none) (s : State) :
    exec (.dxNarrow m) s = .next (faulted s .unsupportedMessageError) := by
  simp only [exec, execDxNarrow, h, answer_error]

end Narrowing

/-! ### The checksum byte a builder writes (R137, R211, R212) -/

section ChecksumByte

variable {a : Digits} {p : Frame}

theorem byteOf_checksum (a p : List Byte) : byteOf (checksum a p) = checksumByte a p := by
  rw [checksum_eq_complement]
  rfl

theorem toNat_checksumByte (a p : List Byte) : (checksumByte a p).toNat = checksum a p := by
  rw [← byteOf_checksum, toNat_byteOf ((checksum_lt a p).trans (by decide))]

theorem isData_checksumByte (a p : List Byte) : isData (checksumByte a p) = true := by
  rw [isData_iff, toNat_checksumByte]
  exact checksum_lt a p

theorem exec_csVerify_checksumByte (ha : IsDigits 4 a) (hp : IsClean p) (s : State) :
    exec (.csVerify a p (checksumByte a p)) s = .next (answered s { rb := some true }) := by
  rw [exec_csVerify ha hp ((isData_iff _).1 (isData_checksumByte a p)), if_pos (toNat_checksumByte a p).symm]

end ChecksumByte

/-! ### The frames of the SysEx and device messages (R192 to R194, R208 to R212) -/

section Frames

variable {dev c : Byte} {a b : Digits} {p : List Byte}

theorem encodeMessage_readRequest (dev : Byte) (a b : Digits) (c : Byte) :
    encodeMessage (readRequestMessage dev a b c) =
      [0xF0, 0x41, dev, 0x00, 0x00, 0x64, 0x11] ++ a ++ b ++ [c, 0xF7] := by
  simp [encodeMessage, readRequestMessage, Config.mfrId, Config.modelId, Config.cmdRq1]

theorem encodeMessage_dataSet (dev : Byte) (a : Digits) (data : List Byte) (c : Byte) :
    encodeMessage (dataSetMessage dev a data c) =
      [0xF0, 0x41, dev, 0x00, 0x00, 0x64, 0x12] ++ a ++ data ++ [c, 0xF7] := by
  simp [encodeMessage, dataSetMessage, Config.mfrId, Config.modelId, Config.cmdDt1]

theorem wirePair_sysExManufacturer {id : List Byte} (hid : manufacturerIdOk id = true) (hp : IsClean p)
    (hfits : id.length + p.length + 2 ≤ Config.frameMax) :
    wirePair ([0xF0] ++ id ++ p ++ [0xF7]) (.sysExManufacturer id p) := by
  refine wirePair_of_valid ?_ ?_ rfl
  · simp only [messageValid, hid, (all_isData_iff p).2 hp, Bool.and_self]
  · simp only [variantLength]
    omega

theorem wirePair_identityRequest (hdev : dev.toNat < 0x80) :
    wirePair (encodeMessage (identityRequestMessage dev)) (identityRequestMessage dev) :=
  wirePair_row (.identityRequest dev) ((isData_iff dev).2 hdev) rfl rfl

theorem wirePair_readRequest (hdev : dev.toNat < 0x80) (ha : IsDigits 4 a) (hb : IsDigits 4 b) (hc : isData c = true) :
    wirePair (encodeMessage (readRequestMessage dev a b c)) (readRequestMessage dev a b c) := by
  have hwf : (Instr.readRequest dev a b c).wellFormed = true := by
    have hav : fourDigits a = true := (validDigits_iff 4 a).2 ha
    have hbv : fourDigits b = true := (validDigits_iff 4 b).2 hb
    simp only [Instr.wellFormed, (isData_iff dev).2 hdev, hav, hbv, hc, Bool.and_self]
  exact wirePair_row _ hwf rfl rfl

theorem wirePair_dataSet (hdev : dev.toNat < 0x80) (ha : IsDigits 4 a) (hp : IsClean p) (hc : isData c = true)
    (hfits : 13 + p.length ≤ Config.frameMax) :
    wirePair (encodeMessage (dataSetMessage dev a p c)) (dataSetMessage dev a p c) := by
  have hwf : (Instr.dataSet dev a p c).wellFormed = true := by
    have hav : fourDigits a = true := (validDigits_iff 4 a).2 ha
    simp only [Instr.wellFormed, (isData_iff dev).2 hdev, hav, (all_isData_iff p).2 hp, hc,
      (fitsPort_iff _).2 hfits, Bool.and_self]
  exact wirePair_row _ hwf rfl rfl

end Frames

/-! ### What the builders answer (R210 to R212) -/

section Builders

variable {dev : Byte} {a b : Digits} {p : Frame}

theorem builderSlots_eq_iff {m m' : MidiMessage} {f : Frame} :
    builderSlots m' = { rmsg := some (.midi m), rbuf := some f } ↔ m' = m ∧ encodeMessage m' = f := by
  simp [builderSlots, and_comm]

theorem exec_dxMkidreq (hdev : dev.toNat < 0x80) (s : State) :
    exec (.dxMkidreq dev) s = .next (answered s (builderSlots (identityRequestMessage dev))) := by
  simp [exec, execDxMkidreq, (isData_iff dev).2 hdev, answer_ok]

theorem exec_dxMkrq1 (hdev : dev.toNat < 0x80) (ha : IsDigits 4 a) (hb : IsDigits 4 b) (s : State) :
    exec (.dxMkrq1 dev a b) s =
      .next (answered s (builderSlots (readRequestMessage dev a b (checksumByte a b)))) := by
  simp [exec, execDxMkrq1, (isData_iff dev).2 hdev, (validDigits_iff 4 a).2 ha, (validDigits_iff 4 b).2 hb,
    readRequestFor, byteOf_checksum, answer_ok]

/-- R212: on valid operands the one check left is the length of the frame. -/
theorem exec_dxMkdt1 (hdev : dev.toNat < 0x80) (ha : IsDigits 4 a) (hp : IsClean p) (s : State) :
    exec (.dxMkdt1 dev a p) s =
      if Config.frameMax < 13 + p.length then .next (faulted s .capacity)
      else .next (answered s (builderSlots (dataSetMessage dev a p (checksumByte a p)))) := by
  simp only [exec, execDxMkdt1, (isData_iff dev).2 hdev, (validDigits_iff 4 a).2 ha, (all_isData_iff p).2 hp,
    dataSetFor, byteOf_checksum, Bool.and_self, Bool.not_true, Bool.false_eq_true, if_false]
  split_ifs
  · exact answer_error ..
  · exact answer_ok ..

theorem exec_dxMkidreq_invalid (h : ¬dev.toNat < 0x80) (s : State) :
    exec (.dxMkidreq dev) s = .next (faulted s .rangeError) := by
  simp [exec, execDxMkidreq, isData_eq_false h, answer_error]

theorem exec_dxMkrq1_invalid_device (h : ¬dev.toNat < 0x80) (a b : Digits) (s : State) :
    exec (.dxMkrq1 dev a b) s = .next (faulted s .rangeError) := by
  simp [exec, execDxMkrq1, isData_eq_false h, answer_error]

theorem exec_dxMkdt1_invalid_device (h : ¬dev.toNat < 0x80) (a : Digits) (p : Frame) (s : State) :
    exec (.dxMkdt1 dev a p) s = .next (faulted s .rangeError) := by
  simp [exec, execDxMkdt1, isData_eq_false h, answer_error]

theorem exec_dxMkdt1_unclean (h : ¬IsClean p) (dev : Byte) (a : Digits) (s : State) :
    exec (.dxMkdt1 dev a p) s = .next (faulted s .rangeError) := by
  simp [exec, execDxMkdt1, all_isData_eq_false h, answer_error]

theorem exec_dxMkrq1_of_not_valid (h : ¬(dev.toNat < 0x80 ∧ IsDigits 4 a ∧ IsDigits 4 b)) (s : State) :
    exec (.dxMkrq1 dev a b) s = .next (faulted s .rangeError) := by
  obtain hdev | hab := not_and_or.1 h
  · exact exec_dxMkrq1_invalid_device hdev a b s
  · exact exec_dxMkrq1_invalid (not_and_or.1 hab) dev s

theorem exec_dxMkdt1_of_not_valid (h : ¬(dev.toNat < 0x80 ∧ IsDigits 4 a ∧ IsClean p)) (s : State) :
    exec (.dxMkdt1 dev a p) s = .next (faulted s .rangeError) := by
  obtain hdev | hap := not_and_or.1 h
  · exact exec_dxMkdt1_invalid_device hdev a p s
  · obtain ha | hp := not_and_or.1 hap
    · exact exec_dxMkdt1_invalid ha dev p s
    · exact exec_dxMkdt1_unclean hp dev a s

/-- A builder that answers has found its operands valid. -/
theorem valid_of_answered {valid : Prop} {x : Answer} {k : FaultKind} {s : State} {r : ResultSlots}
    (hinvalid : ¬valid → x = .next (faulted s k)) (h : x = .next (answered s r)) : valid := by
  by_contra hv
  exact faulted_ne_answered s k r (Host.Outcome.next.inj ((hinvalid hv).symm.trans h))

/-- What a builder answers is told by the state after it. -/
theorem built_of_answered {x : Answer} {m m' : MidiMessage} {f : Frame} {s : State}
    (hbuilt : x = .next (answered s (builderSlots m')))
    (h : x = .next (answered s { rmsg := some (.midi m), rbuf := some f })) : m' = m ∧ encodeMessage m' = f :=
  builderSlots_eq_iff.1 (answered_inj.1 (Host.Outcome.next.inj (hbuilt.symm.trans h)))

end Builders

/-! ### The statements of this family -/

/-- Settles O10: the messages of clean bytes are valid, and their frames have the written lengths. -/
theorem sysExFramesOnTheWire : Obligations.SysExFramesOnTheWire := by
  refine fun p hp => ⟨fun dev hdev hfits => ?_, fun b hlo hhi hfits => ?_, fun b c hb hc hfits => ?_⟩
  · have hclean : (isData dev && p.all isData) = true := by
      rw [(isData_iff dev).2 hdev, (all_isData_iff p).2 hp, Bool.and_self]
    have hlen : 1 + 2 + p.length + 1 ≤ Config.frameMax := by omega
    exact ⟨wirePair_of_valid hclean hlen rfl, wirePair_of_valid hclean hlen rfl⟩
  · refine wirePair_sysExManufacturer ?_ hp (by simp only [List.length_singleton]; omega)
    simp only [manufacturerIdOk, hlo, hhi, decide_true, Bool.and_self]
  · refine wirePair_sysExManufacturer (id := [0x00, b, c]) ?_ hp
      (by simp only [List.length_cons, List.length_nil]; omega)
    simp [manufacturerIdOk, (isData_iff b).2 hb, (isData_iff c).2 hc]

/-- Settles O13: the four patterns are exactly the SysEx messages that narrow. -/
theorem dxNarrowKnowsFourPatterns : Obligations.DxNarrowKnowsFourPatterns := fun _ s =>
  ⟨fun h => exec_dxNarrow_of_some (narrow_of_not_isSysEx h) s,
   fun _ h => exec_dxNarrow_of_some (narrow_of_narrowsTo h) s,
   fun hm h => exec_dxNarrow_of_none (narrow_eq_none hm h) s⟩

/-- Settles O15: the builder's message with its frame written out. -/
theorem dxMkrq1BuildsReadRequest : Obligations.DxMkrq1BuildsReadRequest := by
  refine fun dev a b s => ⟨fun hdev ha hb => ?_, fun h => exec_dxMkrq1_of_not_valid h s⟩
  rw [exec_dxMkrq1 hdev ha hb, builderSlots_eq_iff.2 ⟨rfl, encodeMessage_readRequest dev a b _⟩]
  rfl

/-- Settles O16: the builder's message with its frame written out; the operands are checked before the length (R273). -/
theorem dxMkdt1BuildsDataSet : Obligations.DxMkdt1BuildsDataSet := by
  refine fun dev a p s => ⟨fun hdev ha hp hfits => ?_, fun hdev ha hp hlong => ?_,
    fun h => exec_dxMkdt1_of_not_valid h s⟩
  · rw [exec_dxMkdt1 hdev ha hp, if_neg (Nat.not_lt.2 hfits),
      builderSlots_eq_iff.2 ⟨rfl, encodeMessage_dataSet dev a p _⟩]
    rfl
  · rw [exec_dxMkdt1 hdev ha hp, if_pos hlong]

/-- Settles O17: an answer tells that the operands were valid, and which message and frame were built. -/
theorem buildersObeyTheirLaws : Obligations.BuildersObeyTheirLaws := by
  refine fun dev a b p m f s u => ⟨fun h => ?_, fun h => ?_, fun h => ?_⟩
  · have hdev : dev.toNat < 0x80 := valid_of_answered (fun hv => exec_dxMkidreq_invalid hv s) h
    obtain ⟨rfl, rfl⟩ := built_of_answered (exec_dxMkidreq hdev s) h
    exact ⟨exec_dxNarrow_of_some (narrow_identityRequest dev) u, wirePair_identityRequest hdev⟩
  · obtain ⟨hdev, ha, hb⟩ := valid_of_answered (fun hv => exec_dxMkrq1_of_not_valid hv s) h
    obtain ⟨rfl, rfl⟩ := built_of_answered (exec_dxMkrq1 hdev ha hb s) h
    exact ⟨exec_dxNarrow_of_some (narrow_readRequest dev _ ha.1 hb.1) u,
      wirePair_readRequest hdev ha hb (isData_checksumByte a b), exec_csVerify_checksumByte ha hb.2 u⟩
  · obtain ⟨hdev, ha, hp⟩ := valid_of_answered (fun hv => exec_dxMkdt1_of_not_valid hv s) h
    have heq := exec_dxMkdt1 hdev ha hp s
    have hfits : 13 + p.length ≤ Config.frameMax :=
      Nat.not_lt.1 (valid_of_answered (fun hv => heq.trans (if_pos (not_not.1 hv))) h)
    obtain ⟨rfl, rfl⟩ := built_of_answered (heq.trans (if_neg (Nat.not_lt.2 hfits))) h
    exact ⟨exec_dxNarrow_of_some (narrow_dataSet dev _ ha.1 p) u,
      wirePair_dataSet hdev ha hp (isData_checksumByte a p) hfits, exec_csVerify_checksumByte ha hp u⟩

/-- Settles O14: the builder's message with its frame written out. -/
theorem dxMkidreqBuildsIdentityRequest : Obligations.DxMkidreqBuildsIdentityRequest := fun _ s =>
  ⟨fun hdev => exec_dxMkidreq hdev s,
   fun hdev => exec_dxMkidreq_invalid (Nat.not_lt.2 hdev) s⟩

end Sys2Proof.Machine

/-! PROOFS of family 45_matcher.md: what the matcher's operations answer, what an arriving message and a tick make of
the state, and what a step makes of one slot. The statements of this family stand after the part that proves them. -/

namespace Sys2Proof.Machine

/-! ### Next states by their names in the statements (R26, R265, R272) -/

theorem respond_eq_answered (r : ResultSlots) (s : State) : respond r s = answered s r := rfl

theorem rxError_eq_rejected (k : FaultKind) (s : State) : rxError k s = rejected s k := rfl

theorem notify_rxmsg_eq_surfaced (d : DeviceMessage) (s : State) : notify (.rxmsg d) s = surfaced s d := rfl

/-! ### Pending slots and handles (R32, R220) -/

theorem isPending_iff (sl : Slot) : isPending sl.st = true ↔ Pending sl := by
  cases hst : sl.st <;> simp [isPending, Pending, hst]

theorem isPending_eq_false_iff (sl : Slot) : isPending sl.st = false ↔ ¬Pending sl := by
  rw [← isPending_iff, Bool.not_eq_true]

theorem shapeOfHandle_eq {h : BitVec 1} {sh : Shape} (h0 : h = 0 → sh = .read) (h1 : h = 1 → sh = .ident) :
    shapeOfHandle h = sh := by
  unfold shapeOfHandle
  split
  case isTrue hz => exact (h0 hz).symm
  case isFalse hz => exact (h1 (by bv_omega)).symm

/-! ### The status registers (R40, R248) -/

section Status

variable {s : State} {n : BitVec 3}

theorem exec_srRead_of_some {v : BitVec 32} (h : statusRegister s n = some v) :
    exec (.srRead n) s = .next (answered s { rsr := some v }) := by
  simp only [exec, execSrRead, h, respond_eq_answered]

theorem exec_srRead_of_none (h : statusRegister s n = none) :
    exec (.srRead n) s = .next (faulted s .illegalOp) := by
  simp only [exec, execSrRead, h, raiseFault_eq_faulted]

/-- Bit 0 of PEND is slot 0, bit 1 is slot 1. -/
theorem setWidth_pendView (s : State) :
    (pendView s).setWidth 32 =
      BitVec.ofNat 32 ((isPending s.slot0.st).toNat + 2 * (isPending s.slot1.st).toNat) := by
  unfold pendView
  cases isPending s.slot0.st <;> cases isPending s.slot1.st <;> rfl

/-- The state code takes bits 0 to 2, so `has_to` counts 8. -/
theorem setWidth_slotView (sl : Slot) :
    (slotView sl).setWidth 32 = BitVec.ofNat 32 (slotCode sl.st + if sl.hasTo then 8 else 0) := by
  unfold slotView
  cases sl.hasTo <;> cases sl.st <;> rfl

/-- A number that is 1 for a pending slot and 0 for any other is the slot's bit of PEND. -/
theorem eq_toNat_isPending {sl : Slot} {p : Nat} (h1 : Pending sl → p = 1) (h0 : ¬Pending sl → p = 0) :
    p = (isPending sl.st).toNat := by
  cases hp : isPending sl.st with
  | true => exact h1 ((isPending_iff sl).1 hp)
  | false => exact h0 ((isPending_eq_false_iff sl).1 hp)

end Status

/-! ### The end of a request (R236, R241, R246, R249) -/

theorem fsrWith_idem (fsr : BitVec 12) (i : Nat) : fsrWith (fsrWith fsr i) i = fsrWith fsr i := by
  rw [fsrWith, fsrWith, BitVec.or_assoc, BitVec.or_self]

/-- The bit an answer to `RQ.GET` sets is the one the end of the request has set already. -/
theorem answerGet_fsr_fsrAfter (tag : Nat) (r : ResultRecord) {s : State} {fsr : BitVec 12}
    (h : s.fsr = fsrAfter fsr r.outcome) : (answerGet tag r s).fsr = fsrAfter fsr r.outcome := by
  rw [answerGet_fsr, h]
  cases r.outcome <;> simp [outcomeFault, fsrAfter, outcomeBit, fsrWith_idem]

theorem answerAll_fsr_fsrAfter (r : ResultRecord) (hs : List HeldGet) {s : State} {fsr : BitVec 12}
    (h : s.fsr = fsrAfter fsr r.outcome) :
    (hs.foldl (fun t h => answerGet h.tag r t) s).fsr = fsrAfter fsr r.outcome := by
  induction hs generalizing s with
  | nil => exact h
  | cons g hs ih => exact ih (answerGet_fsr_fsrAfter g.tag r h)

/-- However many commands wait for the request, its end sets the bit of its outcome and no other. -/
theorem resolve_fsr (sh : Shape) (r : ResultRecord) (s : State) :
    (resolve sh r s).fsr = fsrAfter s.fsr r.outcome := by
  obtain ⟨-, -, -, hfsr, -⟩ := settle_spec sh r s
  exact answerAll_fsr_fsrAfter r _ hfsr

theorem statusOf_outcome (o : RequestOutcome) :
    ((outcomeFault o).map statusOf).getD 0 = BitVec.ofNat 4 (((outcomeFault o).map faultCode).getD 0) := by
  cases o <;> rfl

theorem resolve_requestEnded (sh : Shape) (r : ResultRecord) (s : State) :
    requestEnded sh r (outcomeBit r.outcome) s (resolve sh r s) := by
  obtain ⟨hslot, hother, horder, hnotes, htx, hheld, hissued, hinputs, qs, hqs, htags, hall⟩ := resolve_spec sh r s
  refine ⟨hslot, hother, horder, hnotes, ?_, htx, hinputs, hissued, hheld, qs, hqs, htags, fun q hq => ?_⟩
  · rw [resolve_fsr]
    cases r.outcome <;> rfl
  · rw [← statusOf_outcome]
    exact hall q hq

/-! ### `RQ.SENDU` (R221) -/

section Sendu

variable {m : MidiMessage} {f : Frame} {k : FaultKind}

theorem exec_rqSendu_of_ok (h : encodeChecked m = .ok f) (s : State) :
    exec (.rqSendu m) s = .next (answered (emitTx f s) {}) := by
  simp only [exec, execRqSendu, h, respond_eq_answered]

theorem exec_rqSendu_of_error (h : encodeChecked m = .error k) (s : State) :
    exec (.rqSendu m) s = .next (faulted s k) := by
  simp only [exec, execRqSendu, h, raiseFault_eq_faulted]

end Sendu

/-! ### `RQ.SENDR.READ` and `RQ.SENDR.IDENT` (R222 to R226) -/

/-- The operands `RQ.SENDR.READ` accepts. -/
def ReadOperandsOk (dev : Byte) (a b : Digits) (t : Timeout) : Prop :=
  dev.toNat < 0x80 ∧ IsDigits 4 a ∧ IsDigits 4 b ∧ toInt a + toInt b < 2 ^ 28 ∧
  (t.has = true → t.ticks.toNat ≤ 2 ^ 32 - 2)

/-- The operands `RQ.SENDR.IDENT` accepts. -/
def IdentOperandsOk (dev : Byte) (t : Timeout) : Prop :=
  dev.toNat < 0x80 ∧ (t.has = true → t.ticks.toNat ≤ 2 ^ 32 - 2)

/-- The state in which a read with these operands is registered and its frame emitted. -/
def readRegistered (dev : Byte) (a b : Digits) (t : Timeout) (s : State) : State :=
  registerRequest .read { dev := dev.setWidth 7, addr := a, size := b } t (encodeMessage (readRequestFor dev a b)) s

/-- The state in which an identity request with these operands is registered and its frame emitted. -/
def identRegistered (dev : Byte) (t : Timeout) (s : State) : State :=
  registerRequest .ident { s.slot1.req with dev := dev.setWidth 7 } t (encodeMessage (identityRequestMessage dev)) s

section Sendr

variable {dev : Byte} {a b : Digits} {t : Timeout} {s : State}

/-- The four checks of R222 and R224 are those of the operands. -/
theorem readOperandsOk_iff : ReadOperandsOk dev a b t ↔
    isData dev = true ∧ (validDigits 4 a && validDigits 4 b) = true ∧ regionOk a b = true ∧ timeoutOk t = true := by
  rw [ReadOperandsOk, isData_iff, Bool.and_eq_true, validDigits_iff, validDigits_iff, regionOk_iff, timeoutOk_iff,
    and_assoc]
  rfl

theorem identOperandsOk_iff : IdentOperandsOk dev t ↔ isData dev = true ∧ timeoutOk t = true := by
  rw [IdentOperandsOk, isData_iff, timeoutOk_iff]

theorem exec_rqSendrRead_free (h : ReadOperandsOk dev a b t) (hfree : ¬Pending s.slot0) :
    exec (.rqSendrRead dev a b t) s = .next (answered (readRegistered dev a b t s) { rh := some 0 }) := by
  obtain ⟨hdev, hab, hreg, hto⟩ := readOperandsOk_iff.1 h
  simp only [exec, execRqSendrRead, hdev, hab, hreg, hto, (isPending_eq_false_iff _).2 hfree]
  rfl

theorem exec_rqSendrRead_busy (h : ReadOperandsOk dev a b t) (hbusy : Pending s.slot0) :
    exec (.rqSendrRead dev a b t) s = .next (faulted s .shapeBusy) := by
  obtain ⟨hdev, hab, hreg, hto⟩ := readOperandsOk_iff.1 h
  simp only [exec, execRqSendrRead, hdev, hab, hreg, hto, (isPending_iff _).2 hbusy]
  rfl

/-- Each check that can fail raises the same fault, and all come before that of the slot (R273). -/
theorem exec_rqSendrRead_invalid_operands (h : ¬ReadOperandsOk dev a b t) (s : State) :
    exec (.rqSendrRead dev a b t) s = .next (faulted s .rangeError) := by
  simp only [exec, execRqSendrRead, raiseFault_eq_faulted]
  split_ifs with hdev hab hreg hto
  iterate 4 · rfl
  all_goals
    simp only [Bool.not_eq_true', Bool.not_eq_false] at hdev hab hreg hto
    exact absurd (readOperandsOk_iff.2 ⟨hdev, hab, hreg, hto⟩) h

theorem exec_rqSendrIdent_free (h : IdentOperandsOk dev t) (hfree : ¬Pending s.slot1) :
    exec (.rqSendrIdent dev t) s = .next (answered (identRegistered dev t s) { rh := some 1 }) := by
  obtain ⟨hdev, hto⟩ := identOperandsOk_iff.1 h
  simp only [exec, execRqSendrIdent, hdev, hto, (isPending_eq_false_iff _).2 hfree]
  rfl

theorem exec_rqSendrIdent_busy (h : IdentOperandsOk dev t) (hbusy : Pending s.slot1) :
    exec (.rqSendrIdent dev t) s = .next (faulted s .shapeBusy) := by
  obtain ⟨hdev, hto⟩ := identOperandsOk_iff.1 h
  simp only [exec, execRqSendrIdent, hdev, hto, (isPending_iff _).2 hbusy]
  rfl

theorem exec_rqSendrIdent_invalid_operands (h : ¬IdentOperandsOk dev t) (s : State) :
    exec (.rqSendrIdent dev t) s = .next (faulted s .rangeError) := by
  simp only [exec, execRqSendrIdent, raiseFault_eq_faulted]
  split_ifs with hdev hto
  iterate 2 · rfl
  all_goals
    simp only [Bool.not_eq_true', Bool.not_eq_false] at hdev hto
    exact absurd (identOperandsOk_iff.2 ⟨hdev, hto⟩) h

theorem readRegistered_eq (dev : Byte) (a b : Digits) (t : Timeout) (s : State) :
    readRegistered dev a b t s =
      { s with
        slot0 := { st := .sent, req := { dev := BitVec.ofNat 7 dev.toNat, addr := a, size := b },
                   hasTo := t.has, timeout := t.ticks, idle := 0, partials := [], result := none }
        order := s.order ++ [.read]
        tx := s.tx ++ [[0xF0, 0x41, dev, 0x00, 0x00, 0x64, 0x11] ++ a ++ b ++ [checksumByte a b, 0xF7]] } := by
  rw [readRegistered, readRequestFor, byteOf_checksum, encodeMessage_readRequest, BitVec.ofNat_toNat]
  rfl

theorem identRegistered_eq (dev : Byte) (t : Timeout) (s : State) :
    identRegistered dev t s =
      { s with
        slot1 := { st := .sent, req := { s.slot1.req with dev := BitVec.ofNat 7 dev.toNat },
                   hasTo := t.has, timeout := t.ticks, idle := 0, partials := [], result := none }
        order := s.order ++ [.ident]
        tx := s.tx ++ [[0xF0, 0x7E, dev, 0x06, 0x01, 0xF7]] } := by
  rw [identRegistered, BitVec.ofNat_toNat]
  rfl

end Sendr

/-! ### `RQ.GET` and `RQ.CANCEL` (R247, R249) -/

section Handles

variable {h : BitVec 1} {s : State}

theorem exec_rqGet_idle (hst : (slotOf s (shapeOfHandle h)).st = .idle) :
    exec (.rqGet h) s = .next (faulted s .badHandle) := by
  simp only [exec, execRqGet, if_pos hst, raiseFault_eq_faulted]

theorem exec_rqGet_pending (hp : Pending (slotOf s (shapeOfHandle h))) :
    exec (.rqGet h) s = .next (holdGet (shapeOfHandle h) s) := by
  have hne : (slotOf s (shapeOfHandle h)).st ≠ .idle := by rcases hp with hp | hp <;> rw [hp] <;> nofun
  simp only [exec, execRqGet, if_neg hne, if_pos ((isPending_iff _).2 hp)]

theorem exec_rqGet_terminal {r : ResultRecord} (hne : (slotOf s (shapeOfHandle h)).st ≠ .idle)
    (hp : ¬Pending (slotOf s (shapeOfHandle h))) (hr : (slotOf s (shapeOfHandle h)).result = some r) :
    exec (.rqGet h) s = .next (countCommand (answerGet s.issued r s)) := by
  simp only [exec, execRqGet, if_neg hne, if_neg (mt (isPending_iff _).1 hp), hr]

/-- A success is answered with the record alone. -/
theorem answerGet_of_success {r : ResultRecord} (hr : outcomeFault r.outcome = none) (s : State) :
    countCommand (answerGet s.issued r s) = answered s { rres := some r } := by
  simp only [answerGet, hr]
  rfl

/-- A failure is answered with its status, sets its FSR bit and draws the free values of the other slots (U9). -/
theorem answerGet_of_failure {r : ResultRecord} {k : FaultKind} (hr : outcomeFault r.outcome = some k) (s : State) :
    countCommand (answerGet s.issued r s) =
      { s with
        fsr := s.fsr ||| BitVec.twoPow 12 (faultCode k)
        responses := s.responses ++ [{ tag := s.issued, st := BitVec.ofNat 4 (faultCode k),
                                       results := { Config.undefinedResults s.free with rres := some r } }]
        issued := s.issued + 1
        free := s.free + 1 } := by
  simp only [answerGet, hr]
  rfl

theorem exec_rqCancel_pending (hp : Pending (slotOf s (shapeOfHandle h))) :
    exec (.rqCancel h) s =
      .next (answered (resolve (shapeOfHandle h) (emptyResult .cancelledError) s) {}) := by
  simp only [exec, execRqCancel, (isPending_iff _).2 hp]
  rfl

theorem exec_rqCancel_not_pending (hp : ¬Pending (slotOf s (shapeOfHandle h))) :
    exec (.rqCancel h) s = .next (faulted s .badHandle) := by
  simp only [exec, execRqCancel, (isPending_eq_false_iff _).2 hp]
  rfl

end Handles

/-! ### The statements about the operations -/

/-- Settles O32: both operations go by the same checks and the same frame. -/
theorem rqSenduEmitsTheFrame : Obligations.RqSenduEmitsTheFrame := by
  refine fun m s => ⟨fun f hf => ?_, fun k hk => ?_, fun hm hfits => ?_⟩
  · exact exec_rqSendu_of_ok (exec_mcEncode_eq_answered_iff.1 hf) s
  · cases he : encodeChecked m with
    | error k' => rw [exec_rqSendu_of_error he, ← hk, exec_mcEncode_of_error he]
    | ok f =>
      have hok := exec_mcEncode_eq_answered_iff (s := s).2 he
      exact absurd (Host.Outcome.next.inj (hk.symm.trans hok)) (faulted_ne_answered s k _)
  · exact ⟨_, exec_rqSendu_of_ok (encodeChecked_eq_ok_iff.2 ⟨hm, hfits, rfl⟩) s⟩

/-- Settles O33: the operands are checked before the slot, and registration is written out. -/
theorem rqSendrReadRegistersAndEmits : Obligations.RqSendrReadRegistersAndEmits := by
  refine fun dev a b t s => ⟨fun hdev ha hb hend hto => ?_, fun h => exec_rqSendrRead_invalid_operands h s⟩
  have hok : ReadOperandsOk dev a b t := ⟨hdev, ha, hb, hend, hto⟩
  refine ⟨fun hfree => ?_, exec_rqSendrRead_busy hok⟩
  rw [exec_rqSendrRead_free hok hfree, readRegistered_eq]

/-- Settles O34: as for a read; the request keeps what address and size it had. -/
theorem rqSendrIdentRegistersAndEmits : Obligations.RqSendrIdentRegistersAndEmits := by
  refine fun dev t s => ⟨fun hdev hto => ?_, fun h => exec_rqSendrIdent_invalid_operands h s⟩
  have hok : IdentOperandsOk dev t := ⟨hdev, hto⟩
  refine ⟨fun hfree => ⟨{ s.slot1.req with dev := BitVec.ofNat 7 dev.toNat }, rfl, ?_⟩, exec_rqSendrIdent_busy hok⟩
  rw [exec_rqSendrIdent_free hok hfree, identRegistered_eq]

/-- Settles O36: a cancellation is the end of the request, then the command's own answer. -/
theorem rqCancelEndsTheRequest : Obligations.RqCancelEndsTheRequest := by
  intro h sh s h0 h1
  obtain rfl := shapeOfHandle_eq h0 h1
  exact ⟨fun hp => ⟨_, resolve_requestEnded .., exec_rqCancel_pending hp⟩, exec_rqCancel_not_pending⟩

/-- Settles O31: each view zero-extended, and the codes by evaluation. -/
theorem srReadAnswersTheViews : Obligations.SrReadAnswersTheViews := by
  refine fun s => ⟨?_, fun p0 p1 h01 h00 h11 h10 => ?_, ?_, ?_, exec_srRead_of_some rfl, exec_srRead_of_some rfl,
    exec_srRead_of_none rfl, exec_srRead_of_none rfl, rfl⟩
  · rw [BitVec.ofNat_toNat]
    exact exec_srRead_of_some rfl
  · rw [eq_toNat_isPending h01 h00, eq_toNat_isPending h11 h10, ← setWidth_pendView]
    exact exec_srRead_of_some rfl
  · rw [← setWidth_slotView]
    exact exec_srRead_of_some rfl
  · rw [← setWidth_slotView]
    exact exec_srRead_of_some rfl

/-- Settles O35, by the slot's state and, on a terminal slot, by the outcome. -/
theorem rqGetAnswersHoldsOrFaults : Obligations.RqGetAnswersHoldsOrFaults := by
  intro h sh s h0 h1
  obtain rfl := shapeOfHandle_eq h0 h1
  refine ⟨exec_rqGet_idle, exec_rqGet_pending, fun hne hp r hr => ⟨fun ho => ?_, fun code ho => ?_⟩⟩
  · rw [exec_rqGet_terminal hne hp hr, answerGet_of_success]
    rcases ho with ho | ho <;> rw [ho] <;> rfl
  · rw [exec_rqGet_terminal hne hp hr]
    rcases ho with ⟨ho, rfl⟩ | ⟨ho, rfl⟩ | ⟨ho, rfl⟩
    · rw [answerGet_of_failure (k := .timeoutError) (by rw [ho]; rfl)]
      rfl
    · rw [answerGet_of_failure (k := .checksumMismatch) (by rw [ho]; rfl)]
      rfl
    · rw [answerGet_of_failure (k := .cancelledError) (by rw [ho]; rfl)]
      rfl

/-! ### The slot a response belongs to (R230, R235 step 4) -/

section Match

variable {d : DeviceMessage} {s : State} {sh : Shape}

/-- One shape accepts each response kind, so the first of `order` that accepts it is that shape. -/
theorem matchSlot_of_mem (hmem : sh ∈ s.order) (hacc : ∀ sh', acceptsMessage sh' d = true ↔ sh' = sh) :
    matchSlot d s = some sh := by
  cases hm : matchSlot d s with
  | none => exact absurd ((hacc sh).2 rfl) (List.find?_eq_none.1 hm sh hmem)
  | some sh' =>
    obtain ⟨-, hsh'⟩ := matchSlot_eq_some hm
    rw [(hacc sh').1 hsh']

theorem acceptsMessage_dataSet (sh : Shape) (dev : Byte) (a : Digits) (p : List Byte) (c : Byte) :
    acceptsMessage sh (.dataSet dev a p c) = true ↔ sh = .read := by cases sh <;> simp [acceptsMessage]

theorem acceptsMessage_identityReply (sh : Shape) (r : IdentityReply) :
    acceptsMessage sh (.identityReply r) = true ↔ sh = .ident := by cases sh <;> simp [acceptsMessage]

theorem deliver_dataSet (hmem : Shape.read ∈ s.order) (cap : Nat) (dev : Byte) (a : Digits) (p : List Byte)
    (c : Byte) : deliver cap (.dataSet dev a p c) s = receiveChunk cap .read ⟨a, p⟩ c s := by
  simp only [deliver, matchSlot_of_mem hmem fun sh => acceptsMessage_dataSet sh dev a p c]

theorem deliver_identityReply (hmem : Shape.ident ∈ s.order) (cap : Nat) (r : IdentityReply) :
    deliver cap (.identityReply r) s = resolve .ident (identResult r) s := by
  simp only [deliver, matchSlot_of_mem hmem fun sh => acceptsMessage_identityReply sh r]

/-- A message that no registered shape accepts goes to the host (R237, R272). -/
theorem deliver_unmatched (h : ∀ sh ∈ s.order, acceptsMessage sh d = false) (cap : Nat) :
    deliver cap d s = surfaced s d := by
  have hnone : matchSlot d s = none := List.find?_eq_none.2 fun sh hmem => by rw [h sh hmem]; decide
  cases d <;> simp only [deliver, hnone, notify_rxmsg_eq_surfaced]

/-- A message that is no response is accepted by no shape. -/
theorem acceptsMessage_of_not_isResponse (h : isResponse d = false) (sh : Shape) : acceptsMessage sh d = false := by
  cases d
  case dataSet | identityReply => cases h
  all_goals cases sh <;> rfl

theorem deliver_not_response (h : isResponse d = false) (cap : Nat) : deliver cap d s = surfaced s d :=
  deliver_unmatched (fun sh _ => acceptsMessage_of_not_isResponse h sh) cap

end Match

/-! ### A chunk of the pending read (R235 steps 5 to 8) -/

section Chunks

variable {a : Digits} {p : List Byte} {b : Byte} {s : State}

/-- A right checksum byte is the one `checksumByte` names. -/
theorem checksum_eq_toNat_iff : checksum a p = b.toNat ↔ b = checksumByte a p := by
  rw [← toNat_checksumByte]
  exact ⟨fun h => (BitVec.eq_of_toNat_eq h).symm, fun h => h ▸ rfl⟩

theorem chunkInSpace_iff : chunkInSpace ⟨a, p⟩ = true ↔ p = [] ∨ toInt a + p.length - 1 < 2 ^ 28 := by
  change _ ↔ p = [] ∨ toInt a + p.length - 1 < addressLimit
  simp [chunkInSpace]

/-- The keys the chunks bring hold the region exactly when each of its addresses lies in one of them (R231). -/
theorem isComplete_iff {req : Request} {cs : List Chunk} : isComplete req cs = true ↔ regionCovered req cs := by
  simp only [isComplete, covers_iff, coverage, List.mem_flatMap, mem_chunkKeys, regionCovered]

/-- One more chunk is one more run of writes (R232). -/
theorem foldChunks_concat (cs : List Chunk) (c : Chunk) :
    foldChunks (cs ++ [c]) = Memory.writeFrom (foldChunks cs) (toInt c.addr) c.data := by
  simp only [foldChunks, mapWrite, List.foldl_append, List.foldl_cons, List.foldl_nil]

theorem receiveChunk_mismatch (h : b ≠ checksumByte a p) (cap : Nat) (sh : Shape) (s : State) :
    receiveChunk cap sh ⟨a, p⟩ b s = resolve sh (emptyResult .checksumMismatch) s := by
  rw [receiveChunk, if_pos (mt checksum_eq_toNat_iff.1 h)]

/-- With the right checksum byte the address space, the capacity and the coverage are looked at, in this order. -/
theorem receiveChunk_checked (cap : Nat) (sh : Shape) (s : State) :
    receiveChunk cap sh ⟨a, p⟩ (checksumByte a p) s =
      if chunkInSpace ⟨a, p⟩ = false then rejected s .rangeError
      else if cap < (foldChunks ((slotOf s sh).partials ++ [⟨a, p⟩])).length then rejected s .capacity
      else if isComplete (slotOf s sh).req ((slotOf s sh).partials ++ [⟨a, p⟩]) = true then
        resolve sh (readResult (foldChunks ((slotOf s sh).partials ++ [⟨a, p⟩]))) s
      else bufferPartial sh ⟨a, p⟩ s := by
  rw [receiveChunk, if_neg (not_not.2 (checksum_eq_toNat_iff.2 rfl))]
  simp only [Bool.not_eq_true', rxError_eq_rejected]

theorem receiveChunk_off_space (h : ¬(p = [] ∨ toInt a + p.length - 1 < 2 ^ 28)) (cap : Nat) (sh : Shape) (s : State) :
    receiveChunk cap sh ⟨a, p⟩ (checksumByte a p) s = rejected s .rangeError := by
  rw [receiveChunk_checked, if_pos (Bool.eq_false_iff.2 (mt chunkInSpace_iff.1 h))]

section InSpace

variable {cap : Nat} {sh : Shape} (hin : p = [] ∨ toInt a + p.length - 1 < 2 ^ 28)

include hin

theorem receiveChunk_over_capacity (hcap : cap < (foldChunks ((slotOf s sh).partials ++ [⟨a, p⟩])).length) :
    receiveChunk cap sh ⟨a, p⟩ (checksumByte a p) s = rejected s .capacity := by
  rw [receiveChunk_checked, if_neg (by simp [chunkInSpace_iff.2 hin]), if_pos hcap]

theorem receiveChunk_covering (hcap : (foldChunks ((slotOf s sh).partials ++ [⟨a, p⟩])).length ≤ cap)
    (hcov : regionCovered (slotOf s sh).req ((slotOf s sh).partials ++ [⟨a, p⟩])) :
    receiveChunk cap sh ⟨a, p⟩ (checksumByte a p) s =
      resolve sh (readResult (foldChunks ((slotOf s sh).partials ++ [⟨a, p⟩]))) s := by
  rw [receiveChunk_checked, if_neg (by simp [chunkInSpace_iff.2 hin]), if_neg (Nat.not_lt.2 hcap),
    if_pos (isComplete_iff.2 hcov)]

theorem receiveChunk_buffered (hcap : (foldChunks ((slotOf s sh).partials ++ [⟨a, p⟩])).length ≤ cap)
    (hcov : ¬regionCovered (slotOf s sh).req ((slotOf s sh).partials ++ [⟨a, p⟩])) :
    receiveChunk cap sh ⟨a, p⟩ (checksumByte a p) s = bufferPartial sh ⟨a, p⟩ s := by
  rw [receiveChunk_checked, if_neg (by simp [chunkInSpace_iff.2 hin]), if_neg (Nat.not_lt.2 hcap),
    if_neg (mt isComplete_iff.1 hcov)]

end InSpace

end Chunks

/-! ### The arrival of messages and of device messages (R235) -/

section Arrival

variable {m : MidiMessage} {s : State}

theorem receiveMessage_of_none (h : narrow m = none) (cap : Nat) :
    receiveMessage cap m s = rejected s .unsupportedMessageError := by
  simp only [receiveMessage, h, rxError_eq_rejected]

theorem receiveMessage_plain (h : isSysEx m = false) (cap : Nat) :
    receiveMessage cap m s = surfaced s (.passthrough m) := by
  simp only [receiveMessage, narrow_of_not_isSysEx h]
  exact deliver_not_response rfl cap

theorem exec_evRx_of_error {f : Frame} (h : frameWellFormed f = false) (s : State) :
    exec (.evRx f) s = .next (rejected s .decodeError) := by
  rw [← decodeFrame_isOk] at h
  cases hd : decodeFrame f with
  | ok m => rw [hd] at h; cases h
  | error e => simp only [exec, execEvRx, receiveFrame, hd, rxError_eq_rejected]

theorem exec_evRx_of_ok {f : Frame} (h : decodeFrame f = .ok m) (s : State) :
    exec (.evRx f) s = .next (receiveMessage Config.mapCap m s) := by
  simp only [exec, execEvRx, receiveFrame, h]

theorem exec_dataSet_pending (hmem : Shape.read ∈ s.order) (dev : Byte) (a : Digits) (p : List Byte) (c : Byte) :
    exec (.dataSet dev a p c) s = .next (receiveChunk Config.mapCap .read ⟨a, p⟩ c s) :=
  congrArg Host.Outcome.next (deliver_dataSet hmem Config.mapCap dev a p c)

end Arrival

/-! ### The statements about arriving frames -/

/-- Settles O37: the decoder refuses the frame, or the narrowing the message. -/
theorem rejectedFramesAreReported : Obligations.RejectedFramesAreReported := fun _ =>
  ⟨fun _ hf => exec_evRx_of_error hf _,
   fun _ _ => congrArg Host.Outcome.next (receiveMessage_of_none rfl _),
   fun _ _ h => congrArg Host.Outcome.next (receiveMessage_of_none (narrow_eq_none rfl h) _),
   fun _ _ h => congrArg Host.Outcome.next (receiveMessage_of_none (narrow_eq_none rfl h) _)⟩

/-- Settles O40: requests are accepted by no shape, and a response only by its own. -/
theorem unmatchedDeviceMessagesSurface : Obligations.UnmatchedDeviceMessagesSurface := by
  refine fun dev s => ⟨congrArg Host.Outcome.next (deliver_not_response rfl _),
    fun a b c => congrArg Host.Outcome.next (deliver_not_response rfl _),
    fun hread a p c => congrArg Host.Outcome.next (deliver_unmatched (fun sh hsh => ?_) _),
    fun hident man f0 f1 n0 n1 r0 r1 r2 r3 => congrArg Host.Outcome.next (deliver_unmatched (fun sh hsh => ?_) _)⟩
  · rw [Bool.eq_false_iff, ne_eq, acceptsMessage_dataSet]
    rintro rfl
    exact hread hsh
  · rw [Bool.eq_false_iff, ne_eq, acceptsMessage_identityReply]
    rintro rfl
    exact hident hsh

/-- Settles O41: the reply belongs to the registered request, and ends it. -/
theorem identityReplyCompletesTheRequest : Obligations.IdentityReplyCompletesTheRequest :=
  fun _ _ _ _ _ _ _ _ _ _ _ hmem =>
    ⟨_, congrArg Host.Outcome.next (deliver_identityReply hmem _ _), resolve_requestEnded .ident (identResult _) _⟩

/-- Settles O42: past the three checks, coverage ends the read. -/
theorem coveringChunkCompletesTheRead : Obligations.CoveringChunkCompletesTheRead := by
  intro dev a p s hmem hin hcap hcov
  refine ⟨_, exec_dataSet_pending hmem .., ?_⟩
  rw [receiveChunk_covering (sh := .read) hin hcap hcov]
  exact resolve_requestEnded .read (readResult _) s

/-- Settles O43: past the three checks, a gap in the coverage leaves the chunk buffered. -/
theorem partialChunkIsBuffered : Obligations.PartialChunkIsBuffered := by
  intro dev a p s hmem hin hcap hcov
  rw [exec_dataSet_pending hmem, receiveChunk_buffered (sh := .read) hin hcap hcov]
  rfl

/-- Settles O44: the three checks in their order (R235). -/
theorem badChunksFailOrAreDiscarded : Obligations.BadChunksFailOrAreDiscarded := by
  refine fun dev a p c s hmem => ⟨fun hc => ?_, ?_, ?_⟩
  · refine ⟨_, exec_dataSet_pending hmem .., ?_⟩
    rw [receiveChunk_mismatch hc]
    exact resolve_requestEnded .read (emptyResult .checksumMismatch) s
  · rintro rfl hne hoff
    rw [exec_dataSet_pending hmem, receiveChunk_off_space (not_or.2 ⟨hne, Nat.not_lt.2 hoff⟩)]
  · rintro rfl hin hcap
    rw [exec_dataSet_pending hmem, receiveChunk_over_capacity (sh := .read) hin hcap]

/-- Settles O46: the last chunk is one more run of writes, and the canonical form is kept by each. -/
theorem foldKeepsTheLaterChunk : Obligations.FoldKeepsTheLaterChunk := by
  refine ⟨fun k => rfl, fun cs c k => ⟨fun hle hlt => ?_, fun hout => ?_⟩, fun cs h => ?_⟩
  · rw [foldChunks_concat, Memory.read_writeFrom, if_pos ⟨hle, hlt⟩]
  · rw [foldChunks_concat, Memory.read_writeFrom, if_neg (by omega)]
  · exact foldChunks_wf fun c hc => chunkInSpace_iff.2 (h c hc)

/-- Settles O39: no plain message is a response, whichever row or frame it comes from. -/
theorem plainMessagesSurface : Obligations.PlainMessagesSurface := by
  refine fun s => ⟨?_, ?_, ?_, ?_, ?_, ?_, ?_, ?_, ?_, ?_, ?_, ?_, ?_, ?_, ?_, ?_, ?_, ?_, fun f m hf hm => ?frame⟩
  case frame => rw [exec_evRx_of_ok hf, receiveMessage_plain hm]
  all_goals
    intros
    exact congrArg Host.Outcome.next (receiveMessage_plain rfl Config.mapCap)

/-! ### One tick of a slot (R244, R246) -/

theorem expire_eq_resolve (sh : Shape) (s : State) :
    expire sh s = resolve sh (expiryRecord (slotOf s sh).partials) s := by
  unfold expire expiryRecord
  dsimp only
  split_ifs <;> rfl

theorem outcomeBit_expiryRecord (cs : List Chunk) : outcomeBit (expiryRecord cs).outcome = some (expiryBit cs) := by
  unfold expiryRecord expiryBit
  split_ifs <;> rfl

theorem toNat_idleNext (n : BitVec 32) : (idleNext n).toNat = min (n.toNat + 1) (2 ^ 32 - 1) := by
  unfold idleNext
  split_ifs with h
  · bv_omega
  · omega

/-- The slots a tick looks at. -/
theorem counts_iff (sl : Slot) : (isPending sl.st && sl.hasTo) = true ↔ Pending sl ∧ sl.hasTo = true := by
  rw [Bool.and_eq_true, isPending_iff]

theorem tickSlot_ticked (sh : Shape) (s : State) : ticked sh s (tickSlot sh s) := by
  rcases tickSlot_cases sh s with ⟨hoff, he⟩ | ⟨hon, hle, he⟩ | ⟨hon, hlt, he⟩
  · exact ⟨fun _ => he, fun hon => absurd ((counts_iff _).2 hon) (by simp [hoff])⟩
  · refine ⟨fun hoff => absurd ((counts_iff _).1 hon) hoff, fun _ => ⟨_, toNat_idleNext _, fun _ => he, fun hlt => ?_⟩⟩
    exact absurd hlt (Nat.not_lt.2 hle)
  · refine ⟨fun hoff => absurd ((counts_iff _).1 hon) hoff, fun _ => ⟨_, toNat_idleNext _, fun hle => ?_, fun _ => ?_⟩⟩
    · exact absurd hlt (Nat.not_lt.2 hle)
    · rw [he, expire_eq_resolve, slotOf_setSlot_same, ← outcomeBit_expiryRecord]
      exact resolve_requestEnded ..

/-- What a tick makes of a slot: the slot alone decides. -/
def tickedSlot (sl : Slot) : Slot :=
  if isPending sl.st && sl.hasTo then
    if sl.timeout.toNat < (idleNext sl.idle).toNat then
      { sl with st := outcomeState (expiryRecord sl.partials).outcome, idle := idleNext sl.idle, partials := [],
                result := some (expiryRecord sl.partials) }
    else { sl with idle := idleNext sl.idle }
  else sl

theorem slotOf_tickSlot_same (sh : Shape) (s : State) : slotOf (tickSlot sh s) sh = tickedSlot (slotOf s sh) := by
  rcases tickSlot_cases sh s with ⟨hoff, he⟩ | ⟨hon, hle, he⟩ | ⟨hon, hlt, he⟩ <;> rw [he, tickedSlot]
  · rw [hoff]
    rfl
  · rw [if_pos hon, if_neg (Nat.not_lt.2 hle), slotOf_setSlot_same]
  · rw [if_pos hon, if_pos hlt, expire_eq_resolve, slotOf_setSlot_same]
    obtain ⟨hslot, -⟩ := resolve_spec sh (expiryRecord (slotOf s sh).partials)
      (setSlot s sh { slotOf s sh with idle := idleNext (slotOf s sh).idle })
    rw [hslot, slotOf_setSlot_same]

theorem slotOf_tickSlot_other {sh sh' : Shape} (hne : sh' ≠ sh) (s : State) :
    slotOf (tickSlot sh s) sh' = slotOf s sh' := by
  rcases tickSlot_cases sh s with ⟨-, he⟩ | ⟨-, -, he⟩ | ⟨-, -, he⟩ <;> rw [he]
  · exact slotOf_setSlot_other s _ hne
  · obtain ⟨-, hother, -⟩ := resolve_spec sh (expiryRecord (slotOf s sh).partials)
      (setSlot s sh { slotOf s sh with idle := idleNext (slotOf s sh).idle })
    rw [expire_eq_resolve, slotOf_setSlot_same, hother sh' hne, slotOf_setSlot_other s _ hne]

theorem tickSlot_inputs (sh : Shape) (s : State) : (tickSlot sh s).inputs = s.inputs := by
  obtain ⟨-, -, -, -, -, -, -, -, hset⟩ :=
    setSlot_frame s sh { slotOf s sh with idle := idleNext (slotOf s sh).idle }
  rcases tickSlot_cases sh s with ⟨-, he⟩ | ⟨-, -, he⟩ | ⟨-, -, he⟩ <;> rw [he]
  · exact hset
  · obtain ⟨-, -, -, -, -, -, -, hinputs, -⟩ := resolve_spec sh (expiryRecord (slotOf s sh).partials)
      (setSlot s sh { slotOf s sh with idle := idleNext (slotOf s sh).idle })
    rw [expire_eq_resolve, slotOf_setSlot_same, hinputs, hset]

/-! ### Ticks alone (R245) -/

/-- The state after `EV.TICK`: slot 0 is examined before slot 1 (R274). -/
def afterTick (s : State) : State := tickSlot .ident (tickSlot .read s)

/-- Each slot is examined once, and neither examination looks at the other slot. -/
theorem slotOf_afterTick (sh : Shape) (s : State) : slotOf (afterTick s) sh = tickedSlot (slotOf s sh) := by
  rw [afterTick]
  cases sh with
  | read => rw [slotOf_tickSlot_other (by decide), slotOf_tickSlot_same]
  | ident => rw [slotOf_tickSlot_same, slotOf_tickSlot_other (by decide)]

theorem step_tick {s : State} {rest : List Input} (h : s.inputs = .event .tick :: rest) :
    step s = .next (afterTick (withInputs rest s)) := step_decoded h rfl

theorem run_succ {s t : State} (h : step s = .next t) (n : Nat) :
    Host.Core.run Sys2Proof.core (n + 1) s = Host.Core.run Sys2Proof.core n t := by
  have hcore : Sys2Proof.core.step s = .next t := h
  simp only [Host.Core.run, hcore]

/-- A run over `n` ticks ticks each slot `n` times, and keeps the invariant. -/
theorem run_ticks {s : State} {n : Nat} {rest : List Input} (hinv : inv s = true)
    (hin : s.inputs = List.replicate n (.event .tick) ++ rest) :
    ∃ t, Host.Core.run Sys2Proof.core n s = .next t ∧ inv t = true ∧
      ∀ sh, slotOf t sh = tickedSlot^[n] (slotOf s sh) := by
  induction n generalizing s with
  | zero => exact ⟨s, rfl, hinv, fun _ => rfl⟩
  | succ n ih =>
    rw [List.replicate_succ, List.cons_append] at hin
    have hstep := step_tick hin
    have hinputs : (afterTick (withInputs (List.replicate n (.event .tick) ++ rest) s)).inputs =
        List.replicate n (.event .tick) ++ rest := by rw [afterTick, tickSlot_inputs, tickSlot_inputs]; rfl
    obtain ⟨t, hrun, ht, hslots⟩ := ih (slotInvariantsKeptByStep _ _ hinv hstep) hinputs
    refine ⟨t, ?_, ht, fun sh => ?_⟩
    · rw [run_succ hstep, hrun]
    · rw [hslots, slotOf_afterTick]
      cases sh <;> rfl

section Counting

variable {sl : Slot}

theorem tickedSlot_counts (hp : Pending sl) (hto : sl.hasTo = true) (hle : sl.idle.toNat + 1 ≤ sl.timeout.toNat) :
    tickedSlot sl = { sl with idle := idleNext sl.idle } := by
  have hnext : ¬sl.timeout.toNat < (idleNext sl.idle).toNat := by rw [toNat_idleNext]; omega
  rw [tickedSlot, if_pos ((counts_iff sl).2 ⟨hp, hto⟩), if_neg hnext]

/-- R222 keeps the timeout below the value the counter saturates at, so the counter can exceed it. -/
theorem tickedSlot_expires (hp : Pending sl) (hto : sl.hasTo = true) (hmax : sl.timeout.toNat ≤ 2 ^ 32 - 2)
    (heq : sl.idle.toNat = sl.timeout.toNat) :
    (tickedSlot sl).st = outcomeState (expiryRecord sl.partials).outcome ∧
    (tickedSlot sl).result = some (expiryRecord sl.partials) := by
  have hnext : sl.timeout.toNat < (idleNext sl.idle).toNat := by rw [toNat_idleNext]; omega
  rw [tickedSlot, if_pos ((counts_iff sl).2 ⟨hp, hto⟩), if_pos hnext]
  exact ⟨rfl, rfl⟩

/-- As long as the counter stays within the timeout, ticks change the counter alone. -/
theorem tickedSlot_iterate (hp : Pending sl) (hto : sl.hasTo = true) {j : Nat}
    (hle : sl.idle.toNat + j ≤ sl.timeout.toNat) :
    ∃ n : BitVec 32, tickedSlot^[j] sl = { sl with idle := n } ∧ n.toNat = sl.idle.toNat + j := by
  induction j with
  | zero => exact ⟨sl.idle, rfl, rfl⟩
  | succ j ih =>
    obtain ⟨n, hn, hcount⟩ := ih (by omega)
    refine ⟨idleNext n, ?_, ?_⟩
    · rw [Function.iterate_succ_apply', hn]
      refine tickedSlot_counts (sl := { sl with idle := n }) hp hto ?_
      change n.toNat + 1 ≤ sl.timeout.toNat
      omega
    · have := sl.timeout.isLt
      rw [toNat_idleNext]
      omega

theorem outcomeState_expiryRecord (cs : List Chunk) :
    outcomeState (expiryRecord cs).outcome = if cs = [] then .timedOut else .salvaged := by
  unfold expiryRecord
  split_ifs <;> rfl

/-- One tick more than the timeout allows ends the request. -/
theorem tickedSlot_iterate_expires (hp : Pending sl) (hto : sl.hasTo = true) (hmax : sl.timeout.toNat ≤ 2 ^ 32 - 2)
    (hle : sl.idle.toNat ≤ sl.timeout.toNat) :
    (tickedSlot^[sl.timeout.toNat + 1 - sl.idle.toNat] sl).st = outcomeState (expiryRecord sl.partials).outcome ∧
    (tickedSlot^[sl.timeout.toNat + 1 - sl.idle.toNat] sl).result = some (expiryRecord sl.partials) := by
  obtain ⟨n, hn, hcount⟩ := tickedSlot_iterate hp hto (j := sl.timeout.toNat - sl.idle.toNat) (by omega)
  rw [Nat.sub_add_comm hle, Function.iterate_succ_apply', hn]
  exact tickedSlot_expires (sl := { sl with idle := n }) hp hto hmax (show n.toNat = sl.timeout.toNat by omega)

end Counting

/-! ### The statements about time -/

/-- Settles O47: each slot's tick, in the order of R274. -/
theorem tickCountsAndExpires : Obligations.TickCountsAndExpires := fun s =>
  ⟨tickSlot .read s, _, tickSlot_ticked .read s, tickSlot_ticked .ident _, rfl⟩

/-- Settles O48: a run of ticks is the tick of the slot iterated; the invariant bounds the counter by the timeout before,
and takes the ended request out of `order` after. -/
theorem idleTimeoutExpiresOnTime : Obligations.IdleTimeoutExpiresOnTime := by
  rintro s sh k rest hinv hp hto rfl hin
  obtain ⟨hm, -⟩ := (inv_iff s).1 hinv
  obtain ⟨⟨-, -, -, hmax⟩, hle⟩ := (requestOk_iff _).1 (hm.slots sh).request
  have hle := hle ((isPending_iff _).2 hp) hto
  refine ⟨fun j hj => ?_, ?_⟩
  · obtain ⟨m, hm⟩ := Nat.exists_eq_add_of_lt hj
    rw [hm, Nat.add_assoc, List.replicate_add, List.append_assoc] at hin
    obtain ⟨t, hrun, -, hslots⟩ := run_ticks hinv hin
    obtain ⟨n, hn, hcount⟩ := tickedSlot_iterate hp hto (j := j) (by omega)
    refine ⟨t, hrun, ?_, ?_⟩ <;> rw [hslots, hn]
    · exact hp
    · exact hcount
  · obtain ⟨t, hrun, ht, hslots⟩ := run_ticks hinv hin
    obtain ⟨hst, hres⟩ := tickedSlot_iterate_expires hp hto (hmax hto) hle
    rw [← hslots] at hst hres
    refine ⟨t, hrun, ?_, hres, hst.trans (outcomeState_expiryRecord _)⟩
    obtain ⟨htm, -⟩ := (inv_iff t).1 ht
    rw [htm.order, hst, isPending_outcomeState]
    decide

/-! ### RESOLVE records (R251, R270) -/

theorem resolveCount_append (sh : Shape) (ns ms : List Notification) :
    resolveCount sh (ns ++ ms) = resolveCount sh ns + resolveCount sh ms := by simp [resolveCount]

theorem resolveCount_resolve_same (sh : Shape) (o : RequestOutcome) : resolveCount sh [.resolve sh o] = 1 := by
  cases sh <;> rfl

theorem resolveCount_resolve_other {sh sh' : Shape} (h : sh' ≠ sh) (o : RequestOutcome) :
    resolveCount sh' [.resolve sh o] = 0 := by
  simp [resolveCount, h.symm]

/-! ### What a step makes of one slot (R250, R251) -/

/-- The slot's state, and the number of its RESOLVE records, are as before. -/
structure Untouched (sh : Shape) (s t : State) : Prop where
  st : (slotOf t sh).st = (slotOf s sh).st
  count : resolveCount sh t.notes = resolveCount sh s.notes

/-- The slot moves along the transition table of the event, and one RESOLVE is raised exactly when it stops being
pending. -/
structure SlotFate (e : Event) (sh : Shape) (s t : State) : Prop where
  legal : legalMove (.event e) (slotOf s sh).st (slotOf t sh).st = true
  raises : resolveCount sh t.notes = resolveCount sh s.notes +
    (isPending (slotOf s sh).st && !isPending (slotOf t sh).st).toNat

section Fate

variable {e : Event} {sh sh' : Shape} {s t u : State}

theorem untouched_of_eq (hslot : ∀ sh', slotOf t sh' = slotOf s sh') (hnotes : t.notes = s.notes) :
    Untouched sh s t := ⟨by rw [hslot], by rw [hnotes]⟩

/-- Every kind of event may leave a slot as it is. -/
theorem legalMove_self (e : Event) (p : SlotState) : legalMove (.event e) p p = true := by
  cases e <;> simp [legalMove, commandMove, rxMove, tickMove]

theorem Untouched.raises (h : Untouched sh s t) : resolveCount sh t.notes = resolveCount sh s.notes +
    (isPending (slotOf s sh).st && !isPending (slotOf t sh).st).toNat := by
  rw [h.st, h.count, Bool.and_not_self]
  rfl

theorem Untouched.fate (h : Untouched sh s t) : SlotFate e sh s t :=
  ⟨by rw [h.st]; exact legalMove_self e _, h.raises⟩

theorem Untouched.trans_fate (h : Untouched sh s u) (hf : SlotFate e sh u t) : SlotFate e sh s t :=
  ⟨h.st ▸ hf.legal, h.st ▸ h.count ▸ hf.raises⟩

theorem SlotFate.trans_untouched (hf : SlotFate e sh s u) (h : Untouched sh u t) : SlotFate e sh s t :=
  ⟨h.st.symm ▸ hf.legal, h.st.symm ▸ h.count.symm ▸ hf.raises⟩

theorem untouched_setSlot_other (hne : sh' ≠ sh) (s : State) (sl : Slot) : Untouched sh' s (setSlot s sh sl) := by
  obtain ⟨-, -, -, hnotes, -⟩ := setSlot_frame s sh sl
  exact ⟨by rw [slotOf_setSlot_other s sl hne], by rw [hnotes]⟩

theorem untouched_setSlot_idle (sh sh' : Shape) (s : State) (n : BitVec 32) :
    Untouched sh' s (setSlot s sh { slotOf s sh with idle := n }) := by
  by_cases he : sh' = sh
  · subst he
    obtain ⟨-, -, -, hnotes, -⟩ := setSlot_frame s sh' { slotOf s sh' with idle := n }
    exact ⟨by rw [slotOf_setSlot_same], by rw [hnotes]⟩
  · exact untouched_setSlot_other he s _

theorem untouched_resolve_other (hne : sh' ≠ sh) (r : ResultRecord) (s : State) :
    Untouched sh' s (resolve sh r s) := by
  obtain ⟨-, hother, -, hnotes, -⟩ := resolve_spec sh r s
  exact ⟨by rw [hother sh' hne], by rw [hnotes, resolveCount_append, resolveCount_resolve_other hne, Nat.add_zero]⟩

/-- The end of a pending request, by an outcome the event may bring. -/
theorem fate_resolve {r : ResultRecord} (hp : isPending (slotOf s sh).st = true)
    (hmove : legalMove (.event e) (slotOf s sh).st (outcomeState r.outcome) = true) (sh' : Shape) :
    SlotFate e sh' s (resolve sh r s) := by
  by_cases he : sh' = sh
  · subst he
    obtain ⟨hslot, -, -, hnotes, -⟩ := resolve_spec sh' r s
    refine ⟨by rw [hslot]; exact hmove, ?_⟩
    rw [hslot, hnotes, resolveCount_append, resolveCount_resolve_same, isPending_outcomeState, hp]
    rfl
  · exact (untouched_resolve_other he r s).fate

/-- A new request of a slot that is not pending (R224, R225). -/
theorem fate_registerRequest {c : Command} (hfree : ¬Pending (slotOf s sh)) (req : Request) (tmo : Timeout) (f : Frame)
    (sh' : Shape) : SlotFate (.cmd c) sh' s (registerRequest sh req tmo f s) := by
  obtain ⟨hslot, hother, -, -, -, hnotes, -⟩ := registerRequest_spec sh req tmo f s
  have hnot := (isPending_eq_false_iff _).2 hfree
  by_cases he : sh' = sh
  · subst he
    refine ⟨by rw [hslot]; simp [legalMove, commandMove, hnot], ?_⟩
    rw [hslot, hnotes, hnot]
    rfl
  · exact Untouched.fate ⟨by rw [hother sh' he], by rw [hnotes]⟩

/-! ### Commands -/

theorem untouched_faulted (k : FaultKind) : Untouched sh s (faulted s k) :=
  untouched_of_eq (forall_shape.2 ⟨rfl, rfl⟩) rfl

theorem untouched_answered (r : ResultSlots) : Untouched sh s (answered s r) :=
  untouched_of_eq (forall_shape.2 ⟨rfl, rfl⟩) rfl

section Commands

variable {c : Command}

theorem fate_rqSendrRead {dev : Byte} {a b : Digits} {tmo : Timeout} (h : exec (.rqSendrRead dev a b tmo) s = .next t) :
    SlotFate (.cmd c) sh s t := by
  by_cases hok : ReadOperandsOk dev a b tmo
  · by_cases hbusy : Pending s.slot0
    · cases (exec_rqSendrRead_busy hok hbusy).symm.trans h
      exact (untouched_faulted _).fate
    · cases (exec_rqSendrRead_free hok hbusy).symm.trans h
      exact (fate_registerRequest (sh := .read) hbusy _ _ _ sh).trans_untouched (untouched_answered _)
  · cases (exec_rqSendrRead_invalid_operands hok s).symm.trans h
    exact (untouched_faulted _).fate

theorem fate_rqSendrIdent {dev : Byte} {tmo : Timeout} (h : exec (.rqSendrIdent dev tmo) s = .next t) :
    SlotFate (.cmd c) sh s t := by
  by_cases hok : IdentOperandsOk dev tmo
  · by_cases hbusy : Pending s.slot1
    · cases (exec_rqSendrIdent_busy hok hbusy).symm.trans h
      exact (untouched_faulted _).fate
    · cases (exec_rqSendrIdent_free hok hbusy).symm.trans h
      exact (fate_registerRequest (sh := .ident) hbusy _ _ _ sh).trans_untouched (untouched_answered _)
  · cases (exec_rqSendrIdent_invalid_operands hok s).symm.trans h
    exact (untouched_faulted _).fate

theorem untouched_rqSendu {m : MidiMessage} (h : exec (.rqSendu m) s = .next t) : Untouched sh s t := by
  cases he : encodeChecked m with
  | error k =>
    cases (exec_rqSendu_of_error he s).symm.trans h
    exact untouched_faulted k
  | ok f =>
    cases (exec_rqSendu_of_ok he s).symm.trans h
    exact untouched_of_eq (forall_shape.2 ⟨rfl, rfl⟩) rfl

theorem untouched_rqGet {b : BitVec 1} (h : exec (.rqGet b) s = .next t) : Untouched sh s t := by
  by_cases hidle : (slotOf s (shapeOfHandle b)).st = .idle
  · cases (exec_rqGet_idle hidle).symm.trans h
    exact untouched_faulted _
  · by_cases hp : Pending (slotOf s (shapeOfHandle b))
    · cases (exec_rqGet_pending hp).symm.trans h
      exact untouched_of_eq (forall_shape.2 ⟨rfl, rfl⟩) rfl
    · cases hr : (slotOf s (shapeOfHandle b)).result with
      | none => simp [exec, execRqGet, hidle, mt (isPending_iff _).1 hp, hr] at h
      | some r =>
        cases (exec_rqGet_terminal hidle hp hr).symm.trans h
        obtain ⟨⟨h0, h1, -, -, hnotes, -⟩, -⟩ := answerGet_spec s.issued r s
        exact untouched_of_eq (forall_shape.2 ⟨h0, h1⟩) hnotes

theorem fate_rqCancel {b : BitVec 1} (h : exec (.rqCancel b) s = .next t) : SlotFate (.cmd c) sh s t := by
  by_cases hp : Pending (slotOf s (shapeOfHandle b))
  · cases (exec_rqCancel_pending hp).symm.trans h
    have hpend := (isPending_iff _).2 hp
    have hmove : legalMove (.event (.cmd c)) (slotOf s (shapeOfHandle b)).st .cancelled = true := by
      simp [legalMove, commandMove, hpend]
    exact (fate_resolve hpend hmove sh).trans_untouched (untouched_answered _)
  · cases (exec_rqCancel_not_pending hp).symm.trans h
    exact (untouched_faulted _).fate

theorem untouched_srRead {n : BitVec 3} (h : exec (.srRead n) s = .next t) : Untouched sh s t := by
  cases hr : statusRegister s n with
  | none =>
    cases (exec_srRead_of_none hr).symm.trans h
    exact untouched_faulted _
  | some v =>
    cases (exec_srRead_of_some hr).symm.trans h
    exact untouched_answered _

theorem fate_command {i : Instr} (hi : IsCommand i) (h : exec i s = .next t) : SlotFate (.cmd c) sh s t := by
  obtain ⟨c', hc⟩ := hi
  cases instr_form i with
  | computes _ r _ hexec =>
    rcases answer_cases r s with ⟨slots, -, ha⟩ | ⟨k, -, ha⟩ <;> cases ((hexec s).trans ha).symm.trans h
    · exact (untouched_answered _).fate
    · exact (untouched_faulted _).fate
  | sendu m hi => subst hi; exact (untouched_rqSendu h).fate
  | sendrRead dev a b tmo hi => subst hi; exact fate_rqSendrRead h
  | sendrIdent dev tmo hi => subst hi; exact fate_rqSendrIdent h
  | get b hi => subst hi; exact (untouched_rqGet h).fate
  | cancel b hi => subst hi; exact fate_rqCancel h
  | status n hi => subst hi; exact (untouched_srRead h).fate
  | message _ _ henc | device _ _ henc => cases henc.symm.trans hc
  | frame f hi | tick hi => subst hi; cases hc

end Commands

/-! ### Arriving frames -/

section Frames

variable {f : Frame}

theorem untouched_rxError (k : FaultKind) : Untouched sh s (rxError k s) :=
  ⟨by cases sh <;> rfl, resolveCount_append sh s.notes [.rxerr k]⟩

theorem untouched_surfaced (d : DeviceMessage) : Untouched sh s (notify (.rxmsg d) s) :=
  ⟨by cases sh <;> rfl, resolveCount_append sh s.notes [.rxmsg d]⟩

/-- The two ends an arriving frame can bring a pending request (R236, R241). -/
theorem fate_resolve_rx {r : ResultRecord} (hp : isPending (slotOf s sh).st = true)
    (ho : r.outcome = .completed ∨ r.outcome = .checksumMismatch) (sh' : Shape) :
    SlotFate (.rx f) sh' s (resolve sh r s) := by
  refine fate_resolve hp ?_ sh'
  rcases ho with ho | ho <;> simp [legalMove, rxMove, outcomeState, ho, hp]

theorem fate_bufferPartial (hp : isPending (slotOf s sh).st = true) (c : Chunk) (sh' : Shape) :
    SlotFate (.rx f) sh' s (bufferPartial sh c s) := by
  rw [bufferPartial_spec]
  by_cases he : sh' = sh
  · subst he
    obtain ⟨-, -, -, hnotes, -⟩ := setSlot_frame s sh'
      { slotOf s sh' with partials := (slotOf s sh').partials ++ [c], idle := 0, st := .completing }
    refine ⟨by rw [slotOf_setSlot_same]; simp [legalMove, rxMove, hp], ?_⟩
    rw [slotOf_setSlot_same, hnotes, hp]
    rfl
  · exact (untouched_setSlot_other he s _).fate

theorem fate_receiveChunk (hp : isPending (slotOf s sh).st = true) (cap : Nat) (c : Chunk) (b : Byte) (sh' : Shape) :
    SlotFate (.rx f) sh' s (receiveChunk cap sh c b s) := by
  rcases receiveChunk_cases cap sh c b s with ⟨-, he⟩ | ⟨-, he⟩ | ⟨-, -, he⟩ | ⟨-, -, -, he⟩ | ⟨-, -, -, he⟩ <;> rw [he]
  · exact fate_resolve_rx hp (.inr rfl) sh'
  · exact (untouched_rxError _).fate
  · exact (untouched_rxError _).fate
  · exact fate_resolve_rx hp (.inl rfl) sh'
  · exact fate_bufferPartial hp c sh'

/-- A response is consumed by a slot of `order`, which the invariant makes a pending one. -/
theorem fate_deliver (hm : MatcherInv s) (cap : Nat) (d : DeviceMessage) : SlotFate (.rx f) sh s (deliver cap d s) := by
  rcases deliver_cases cap d s with ⟨_, a, p, b, -, hmem, he⟩ | ⟨r, -, hmem, he⟩ | he <;> rw [he]
  · exact fate_receiveChunk ((hm.order .read).1 hmem) cap ⟨a, p⟩ b sh
  · exact fate_resolve_rx ((hm.order .ident).1 hmem) (.inl rfl) sh
  · exact (untouched_surfaced d).fate

theorem fate_receiveFrame (hm : MatcherInv s) (cap : Nat) : SlotFate (.rx f) sh s (receiveFrame cap f s) := by
  rcases receiveFrame_cases cap f s with he | ⟨m, -, -, he⟩ | ⟨m, d, -, -, he⟩ <;> rw [he]
  · exact (untouched_rxError _).fate
  · exact (untouched_rxError _).fate
  · exact fate_deliver hm cap d

end Frames

/-! ### Ticks -/

/-- A Sent slot holds no partials and a Completing one does, so the first times out and the second is salvaged (R33 (a),
(b), R246). -/
theorem tickMove_expiry {sl : Slot} (hok : stateOk sl = true) (hp : isPending sl.st = true) :
    tickMove sl.st (outcomeState (expiryRecord sl.partials).outcome) = true := by
  rw [outcomeState_expiryRecord]
  rcases (isPending_iff sl).1 hp with hst | hst
  · have hnone : sl.partials = [] := (stateOk_pending hok hp).2 (by simp [hst])
    simp [tickMove, hst, hnone]
  · have hsome : sl.partials ≠ [] := by
      rw [stateOk, hst] at hok
      simp_all
    simp [tickMove, hst, hsome]

theorem fate_tickSlot (hm : MatcherInv s) (sh sh' : Shape) : SlotFate .tick sh' s (tickSlot sh s) := by
  have hidle := untouched_setSlot_idle sh sh' s (idleNext (slotOf s sh).idle)
  rcases tickSlot_cases sh s with ⟨-, he⟩ | ⟨-, -, he⟩ | ⟨hon, -, he⟩ <;> rw [he]
  · exact Untouched.fate ⟨rfl, rfl⟩
  · exact hidle.fate
  · have hp := (Bool.and_eq_true_iff.1 hon).1
    rw [expire_eq_resolve]
    refine hidle.trans_fate (fate_resolve ?_ ?_ sh') <;> rw [slotOf_setSlot_same]
    · exact hp
    · exact tickMove_expiry (hm.slots sh).state hp

theorem untouched_tickSlot_other (hm : MatcherInv s) (hne : sh' ≠ sh) : Untouched sh' s (tickSlot sh s) := by
  have hslot := slotOf_tickSlot_other hne s
  refine ⟨by rw [hslot], ?_⟩
  rw [(fate_tickSlot hm sh sh').raises, hslot, Bool.and_not_self]
  rfl

/-- Each slot is examined once, so its fate is that of its own examination. -/
theorem fate_afterTick (hm : MatcherInv s) (sh : Shape) : SlotFate .tick sh s (afterTick s) := by
  have hm' := hm.after_tickSlot .read
  cases sh with
  | read => exact (fate_tickSlot hm .read .read).trans_untouched (untouched_tickSlot_other hm' (by decide))
  | ident => exact (untouched_tickSlot_other hm (by decide)).trans_fate (fate_tickSlot hm' .ident .ident)

/-! ### Steps -/

theorem fate_exec {i : Instr} (hm : MatcherInv s) (hd : decodeEvent e = .ok i) (h : exec i s = .next t) :
    SlotFate e sh s t := by
  cases e with
  | cmd c => exact fate_command (decodeCommand_isCommand c i hd) h
  | rx f =>
    cases hd
    cases (exec_decodeRx f s).symm.trans h
    exact fate_receiveFrame hm _
  | tick =>
    cases hd
    cases h
    exact fate_afterTick hm sh

theorem fate_step {rest : List Input} (hinv : inv s = true) (hin : s.inputs = .event e :: rest)
    (hstep : step s = .next t) : SlotFate e sh s t := by
  have hsame : Untouched sh s (withInputs rest s) := untouched_of_eq (forall_shape.2 ⟨rfl, rfl⟩) rfl
  obtain ⟨hm, -⟩ := (inv_iff s).1 hinv
  have hm' : MatcherInv (withInputs rest s) := hm.congr (forall_shape.2 ⟨rfl, rfl⟩) rfl rfl
  cases hd : decodeEvent e with
  | ok i => exact hsame.trans_fate (fate_exec hm' hd ((step_decoded hin hd).symm.trans hstep))
  | error r =>
    cases (step_refused hin hd).symm.trans hstep
    exact hsame.trans_fate (untouched_faulted _).fate

end Fate

/-! ### The statements about steps -/

/-- Settles O53, by the input: an event by its transition table, the reset input by the reset state, and the ports touch
no slot. -/
theorem slotsFollowTheTransitionTable : Obligations.SlotsFollowTheTransitionTable := by
  intro s t i rest sh hinv hin hstep
  match i with
  | .event e => exact (fate_step hinv hin hstep).legal
  | .resetInput =>
    cases (step_resetInput hin).symm.trans hstep
    cases sh <;> rfl
  | .takeTx =>
    cases (step_takeTx hin).symm.trans hstep
    cases sh <;> exact decide_eq_true rfl
  | .takeNotification =>
    cases (step_takeNotification hin).symm.trans hstep
    cases sh <;> exact decide_eq_true rfl
  | .takeResponse =>
    cases (step_takeResponse hin).symm.trans hstep
    cases sh <;> exact decide_eq_true rfl

/-- What the count of R251 says, once one RESOLVE is raised exactly when the slot stops being pending. -/
theorem resolvesExactlyOnce_of_raises {sh : Shape} {s t : State} (ht : inv t = true)
    (hraises : resolveCount sh t.notes = resolveCount sh s.notes +
      (isPending (slotOf s sh).st && !isPending (slotOf t sh).st).toNat) :
    (Pending (slotOf s sh) → ¬Pending (slotOf t sh) →
      resolveCount sh t.notes = resolveCount sh s.notes + 1 ∧ sh ∉ t.order) ∧
    (¬Pending (slotOf s sh) ∨ Pending (slotOf t sh) → resolveCount sh t.notes = resolveCount sh s.notes) := by
  obtain ⟨hm, -⟩ := (inv_iff t).1 ht
  simp only [← isPending_iff, Bool.not_eq_true, hm.order]
  refine ⟨fun hs ht => ⟨?_, by simp [ht]⟩, fun h => ?_⟩
  · rw [hraises, hs, ht]
    rfl
  · rcases h with h | h <;> simp [hraises, h]

/-- Settles O54: an event raises the record when it ends the request, and the two inputs left raise none. -/
theorem requestResolvesExactlyOnce : Obligations.RequestResolvesExactlyOnce := by
  intro s t i rest sh hinv hin hreset hnote hstep
  refine resolvesExactlyOnce_of_raises (slotInvariantsKeptByStep s t hinv hstep) ?_
  match i with
  | .event e => exact (fate_step hinv hin hstep).raises
  | .resetInput => exact absurd rfl hreset
  | .takeNotification => exact absurd rfl hnote
  | .takeTx =>
    cases (step_takeTx hin).symm.trans hstep
    exact (untouched_of_eq (forall_shape.2 ⟨rfl, rfl⟩) rfl).raises
  | .takeResponse =>
    cases (step_takeResponse hin).symm.trans hstep
    exact (untouched_of_eq (forall_shape.2 ⟨rfl, rfl⟩) rfl).raises

end Sys2Proof.Machine

/-! PROOFS of family 60_exceptions.md: what a command other than `RQ.SENDR.*` and `RQ.CANCEL` leaves unchanged, and that
a command other than `RQ.GET` is answered in its own event; each with the statement it serves. -/

namespace Sys2Proof.Machine

/-! ### What a command leaves unchanged (R276, R20, R21) -/

/-- A command with this op code has changed nothing of the matcher, of the notification port or of what is to come, and
TX and the held commands only if they are its to change. -/
structure LeavesMatcher (op : Byte) (s t : State) : Prop where
  slot0 : t.slot0 = s.slot0
  slot1 : t.slot1 = s.slot1
  order : t.order = s.order
  notes : t.notes = s.notes
  inputs : t.inputs = s.inputs
  tx : op ≠ 0x50 → t.tx = s.tx
  held : op ≠ 0x53 → t.held = s.held

section Frame

variable {s t : State}

theorem leavesMatcher_faulted (op : Byte) (s : State) (k : FaultKind) : LeavesMatcher op s (faulted s k) :=
  ⟨rfl, rfl, rfl, rfl, rfl, fun _ => rfl, fun _ => rfl⟩

theorem leavesMatcher_answered (op : Byte) (s : State) (r : ResultSlots) : LeavesMatcher op s (answered s r) :=
  ⟨rfl, rfl, rfl, rfl, rfl, fun _ => rfl, fun _ => rfl⟩

theorem leavesMatcher_answer {r : Except FaultKind ResultSlots} (op : Byte) (h : answer r s = .next t) :
    LeavesMatcher op s t := by
  cases r with
  | ok slots => cases h; exact leavesMatcher_answered op s slots
  | error k => cases h; exact leavesMatcher_faulted op s k

theorem leavesMatcher_rqSendu {m : MidiMessage} (h : exec (.rqSendu m) s = .next t) : LeavesMatcher 0x50 s t := by
  cases he : encodeChecked m with
  | error k =>
    cases (exec_rqSendu_of_error he s).symm.trans h
    exact leavesMatcher_faulted _ s k
  | ok f =>
    cases (exec_rqSendu_of_ok he s).symm.trans h
    exact ⟨rfl, rfl, rfl, rfl, rfl, fun hop => absurd rfl hop, fun _ => rfl⟩

/-- What `RQ.GET` makes of the state when it does not stop: a fault, one more held command, or an answer (R247). -/
theorem rqGet_cases {b : BitVec 1} (h : exec (.rqGet b) s = .next t) :
    t = faulted s .badHandle ∨ t = holdGet (shapeOfHandle b) s ∨ ∃ r, t = countCommand (answerGet s.issued r s) := by
  by_cases hidle : (slotOf s (shapeOfHandle b)).st = .idle
  · exact .inl (Host.Outcome.next.inj (h.symm.trans (exec_rqGet_idle hidle)))
  · by_cases hp : Pending (slotOf s (shapeOfHandle b))
    · exact .inr (.inl (Host.Outcome.next.inj (h.symm.trans (exec_rqGet_pending hp))))
    · cases hr : (slotOf s (shapeOfHandle b)).result with
      | none => simp [exec, execRqGet, hidle, mt (isPending_iff _).1 hp, hr] at h
      | some r => exact .inr (.inr ⟨r, Host.Outcome.next.inj (h.symm.trans (exec_rqGet_terminal hidle hp hr))⟩)

theorem leavesMatcher_rqGet {b : BitVec 1} (h : exec (.rqGet b) s = .next t) : LeavesMatcher 0x53 s t := by
  obtain rfl | rfl | ⟨r, rfl⟩ := rqGet_cases h
  · exact leavesMatcher_faulted _ s _
  · exact ⟨rfl, rfl, rfl, rfl, rfl, fun _ => rfl, fun hop => absurd rfl hop⟩
  · obtain ⟨⟨h0, h1, horder, htx, hnotes, -, hinputs⟩, hheld, -⟩ := answerGet_spec s.issued r s
    exact ⟨h0, h1, horder, hnotes, hinputs, fun _ => htx, fun _ => hheld⟩

theorem leavesMatcher_srRead {n : BitVec 3} (op : Byte) (h : exec (.srRead n) s = .next t) : LeavesMatcher op s t := by
  cases hr : statusRegister s n with
  | none =>
    cases (exec_srRead_of_none hr).symm.trans h
    exact leavesMatcher_faulted op s _
  | some v =>
    cases (exec_srRead_of_some hr).symm.trans h
    exact leavesMatcher_answered op s _

/-- Neither an operation that only computes nor `SR.READ` touches the matcher or its ports; `RQ.SENDU` adds to TX and
`RQ.GET` to the held commands. -/
theorem exec_leavesMatcher {i : Instr} {c : Command} (henc : encode i = .cmd c) (h : exec i s = .next t)
    (h51 : c.op ≠ 0x51) (h52 : c.op ≠ 0x52) (h54 : c.op ≠ 0x54) : LeavesMatcher c.op s t := by
  cases instr_form i with
  | computes _ _ _ hexec => exact leavesMatcher_answer c.op ((hexec s).symm.trans h)
  | sendu m hi => subst hi; cases henc; exact leavesMatcher_rqSendu h
  | sendrRead dev a b tmo hi => subst hi; cases henc; exact absurd rfl h51
  | sendrIdent dev tmo hi => subst hi; cases henc; exact absurd rfl h52
  | get b hi => subst hi; cases henc; exact leavesMatcher_rqGet h
  | cancel b hi => subst hi; cases henc; exact absurd rfl h54
  | status n hi => subst hi; exact leavesMatcher_srRead c.op h
  | message _ _ henc' | device _ _ henc' => cases henc'.symm.trans henc
  | frame f hi | tick hi => subst hi; cases henc

end Frame

/-- Settles O57, by the form of the operation's meaning. -/
theorem slotsChangeOnlyThroughTheMatcher : Obligations.SlotsChangeOnlyThroughTheMatcher := by
  intro i c s t henc h h51 h52 h54
  obtain ⟨h0, h1, horder, hnotes, hinputs, htx, hheld⟩ := exec_leavesMatcher henc h h51 h52 h54
  exact ⟨h0, h1, horder, hnotes, hinputs, htx, hheld⟩

/-! ### Answers in the command's own event (R262, R265, R266) -/

/-- The meaning `x` of an operation with this op code, run on `s`, answers at once: its own response stands last, and a
fault is a listed one whose next state is `faulted`. -/
def AnswersAtOnce (op : Nat) (s : State) (x : Answer) : Prop :=
  ∃ t qs q, x = .next t ∧ t.responses = s.responses ++ qs ++ [q] ∧ q.tag = s.issued ∧ t.issued = s.issued + 1 ∧
    (q.st ≠ 0 → ∃ k ∈ listedFaults op, t = faulted s k)

/-- The faults a computation can raise are listed for the operation (R262). -/
def RaisesListed (op : Nat) (r : Except FaultKind ResultSlots) : Prop := ∀ k, r = .error k → k ∈ listedFaults op

section AtOnce

variable {op : Nat} {s : State} {k : FaultKind}

theorem answersAtOnce_faulted (hk : k ∈ listedFaults op) : AnswersAtOnce op s (.next (faulted s k)) :=
  ⟨_, [], _, rfl, by rw [List.append_nil]; rfl, rfl, rfl, fun _ => ⟨k, hk, rfl⟩⟩

/-- A success after some effect `u` of the operation that has answered other commands only. -/
theorem answersAtOnce_answered {u : State} (qs : List Response) (hres : u.responses = s.responses ++ qs)
    (hissued : u.issued = s.issued) (r : ResultSlots) : AnswersAtOnce op s (.next (answered u r)) :=
  ⟨_, qs, _, rfl, congrArg (· ++ _) hres, hissued, congrArg (· + 1) hissued, fun hst => absurd rfl hst⟩

/-- A success after an effect that leaves the command port alone. -/
theorem answersAtOnce_answered_of_quiet (s u : State) (hres : u.responses = s.responses) (hissued : u.issued = s.issued)
    (r : ResultSlots) : AnswersAtOnce op s (.next (answered u r)) :=
  answersAtOnce_answered [] (by rw [hres, List.append_nil]) hissued r

theorem illegalOp_mem_listedFaults (op : Nat) : .illegalOp ∈ listedFaults op := by
  unfold listedFaults
  split
  · decide
  · split <;> decide

/-! ### The operations that only compute -/

theorem answersAtOnce_answer {r : Except FaultKind ResultSlots} (hr : RaisesListed op r) :
    AnswersAtOnce op s (answer r s) := by
  cases r with
  | ok slots => exact answersAtOnce_answered_of_quiet s s rfl rfl slots
  | error k => exact answersAtOnce_faulted (hr k rfl)

theorem raisesListed_ok (r : ResultSlots) : RaisesListed op (.ok r) := nofun

theorem raisesListed_error (hk : k ∈ listedFaults op) : RaisesListed op (.error k) := by
  rintro _ ⟨⟩
  exact hk

/-- A check in front of a computation adds its own fault. -/
theorem RaisesListed.check {p : Prop} [Decidable p] {r : Except FaultKind ResultSlots} (hr : RaisesListed op r)
    (hk : k ∈ listedFaults op) : RaisesListed op (if p then .error k else r) := by
  split
  · exact raisesListed_error hk
  · exact hr

/-- The checks of `MC.ENCODE`, which `RQ.SENDU` makes too (R153, R221). -/
theorem encodeChecked_fault {m : MidiMessage} (h : encodeChecked m = .error k) : k = .rangeError ∨ k = .capacity := by
  unfold encodeChecked at h
  split_ifs at h <;> cases h
  · exact .inl rfl
  · exact .inr rfl

/-! ### The matcher's operations and the status read -/

theorem exec_rqSendu_answersAtOnce (m : MidiMessage) (s : State) : AnswersAtOnce 0x50 s (exec (.rqSendu m) s) := by
  cases he : encodeChecked m with
  | error k =>
    rw [exec_rqSendu_of_error he]
    refine answersAtOnce_faulted ?_
    obtain rfl | rfl := encodeChecked_fault he <;> decide
  | ok f =>
    rw [exec_rqSendu_of_ok he]
    exact answersAtOnce_answered_of_quiet s (emitTx f s) rfl rfl _

theorem exec_rqSendrRead_answersAtOnce (dev : Byte) (a b : Digits) (tmo : Timeout) (s : State) :
    AnswersAtOnce 0x51 s (exec (.rqSendrRead dev a b tmo) s) := by
  by_cases hok : ReadOperandsOk dev a b tmo
  · by_cases hbusy : Pending s.slot0
    · rw [exec_rqSendrRead_busy hok hbusy]
      exact answersAtOnce_faulted (by decide)
    · rw [exec_rqSendrRead_free hok hbusy]
      exact answersAtOnce_answered_of_quiet s (readRegistered dev a b tmo s) rfl rfl _
  · rw [exec_rqSendrRead_invalid_operands hok]
    exact answersAtOnce_faulted (by decide)

theorem exec_rqSendrIdent_answersAtOnce (dev : Byte) (tmo : Timeout) (s : State) :
    AnswersAtOnce 0x52 s (exec (.rqSendrIdent dev tmo) s) := by
  by_cases hok : IdentOperandsOk dev tmo
  · by_cases hbusy : Pending s.slot1
    · rw [exec_rqSendrIdent_busy hok hbusy]
      exact answersAtOnce_faulted (by decide)
    · rw [exec_rqSendrIdent_free hok hbusy]
      exact answersAtOnce_answered_of_quiet s (identRegistered dev tmo s) rfl rfl _
  · rw [exec_rqSendrIdent_invalid_operands hok]
    exact answersAtOnce_faulted (by decide)

/-- The commands that waited for the cancelled request are answered before the cancellation (log 10). -/
theorem exec_rqCancel_answersAtOnce (b : BitVec 1) (s : State) : AnswersAtOnce 0x54 s (exec (.rqCancel b) s) := by
  by_cases hp : Pending (slotOf s (shapeOfHandle b))
  · rw [exec_rqCancel_pending hp]
    obtain ⟨-, -, -, -, -, -, hissued, -, qs, hqs, -⟩ :=
      resolve_spec (shapeOfHandle b) (emptyResult .cancelledError) s
    exact answersAtOnce_answered qs hqs hissued _
  · rw [exec_rqCancel_not_pending hp]
    exact answersAtOnce_faulted (by decide)

theorem exec_srRead_answersAtOnce (n : BitVec 3) (s : State) : AnswersAtOnce 0x60 s (exec (.srRead n) s) := by
  cases hr : statusRegister s n with
  | none =>
    rw [exec_srRead_of_none hr]
    exact answersAtOnce_faulted (illegalOp_mem_listedFaults _)
  | some v =>
    rw [exec_srRead_of_some hr]
    exact answersAtOnce_answered_of_quiet s s rfl rfl _

/-! ### Every command record -/

/-- A computation is a row of checks in front of a result, and each check's fault is in the operation's row of R262; the
operations of the matcher and the status read have their own lemmas. -/
theorem exec_answersAtOnce {i : Instr} {op : Byte} {o : OperandSlots} (henc : encode i = .cmd ⟨op, o⟩)
    (hget : op ≠ 0x53) (s : State) : AnswersAtOnce op.toNat s (exec i s) := by
  cases i <;> cases henc
  case sbFromint | sbToint | sbTobytes | sbCmp | sbDiff | csCompute | dxMkidreq =>
    exact answersAtOnce_answer ((raisesListed_ok _).check (by decide))
  case sbFrombytes | dsAddi | dsSubi | rgContains | rgCovered | csVerify | dxMkrq1 =>
    exact answersAtOnce_answer (((raisesListed_ok _).check (by decide)).check (by decide))
  case dxMkdt1 =>
    exact answersAtOnce_answer ((((raisesListed_ok _).check (by decide)).check (by decide)).check (by decide))
  case sbOffsetby =>
    refine answersAtOnce_answer (RaisesListed.check ?_ (by decide))
    split
    · exact raisesListed_error (by decide)
    · exact raisesListed_ok _
  case mcDecode | dxNarrow =>
    refine answersAtOnce_answer ?_
    split
    · exact raisesListed_error (by decide)
    · exact raisesListed_ok _
  case mcEncode =>
    refine answersAtOnce_answer ?_
    split
    next k he => exact raisesListed_error (by obtain rfl | rfl := encodeChecked_fault he <;> decide)
    next => exact raisesListed_ok _
  case rqSendu m => exact exec_rqSendu_answersAtOnce m s
  case rqSendrRead dev a b tmo => exact exec_rqSendrRead_answersAtOnce dev a b tmo s
  case rqSendrIdent dev tmo => exact exec_rqSendrIdent_answersAtOnce dev tmo s
  case rqGet => exact absurd rfl hget
  case rqCancel b => exact exec_rqCancel_answersAtOnce b s
  case srRead n => exact exec_srRead_answersAtOnce n s

end AtOnce

/-- Settles O58: the command is refused, or it is an operation with its own op code. -/
theorem commandsAnswerInTheirOwnEvent : Obligations.CommandsAnswerInTheirOwnEvent := by
  intro s c rest hin hget
  suffices h : AnswersAtOnce c.op.toNat (withInputs rest s) (step s) from h
  cases hd : decodeCommand c with
  | ok i =>
    obtain ⟨o, henc, -⟩ := decodeCommand_isOperationOf c i hd
    rw [step_decoded hin hd]
    exact exec_answersAtOnce henc hget _
  | error r =>
    rw [step_refused hin hd]
    exact answersAtOnce_faulted (illegalOp_mem_listedFaults _)

end Sys2Proof.Machine

/-! PROOFS of family 70_reset_and_hazards.md: from a state that meets the invariant every step has a next state, since
`RQ.GET` finds a result record in a terminal slot; with the statement it serves. -/

namespace Sys2Proof.Machine

/-! ### No instruction stops (R33, R297) -/

/-- The part of R33 (c) that `RQ.GET` relies on: a terminal slot holds its result record. -/
theorem stateOk_terminal {sl : Slot} (h : stateOk sl = true) (hne : sl.st ≠ .idle) (hp : ¬Pending sl) :
    ∃ r, sl.result = some r := by
  cases hr : sl.result with
  | some r => exact ⟨r, rfl⟩
  | none =>
    have hpend : isPending sl.st = false := (isPending_eq_false_iff sl).2 hp
    cases hst : sl.st <;> simp_all [stateOk, isPending]

theorem exec_rqGet_steps {s : State} (hm : MatcherInv s) (b : BitVec 1) : ∃ t, exec (.rqGet b) s = .next t := by
  by_cases hidle : (slotOf s (shapeOfHandle b)).st = .idle
  · exact ⟨_, exec_rqGet_idle hidle⟩
  · by_cases hp : Pending (slotOf s (shapeOfHandle b))
    · exact ⟨_, exec_rqGet_pending hp⟩
    · obtain ⟨r, hr⟩ := stateOk_terminal (hm.slots _).state hidle hp
      exact ⟨_, exec_rqGet_terminal hidle hp hr⟩

theorem answer_steps (r : Except FaultKind ResultSlots) (s : State) : ∃ t, answer r s = .next t := by
  cases r with
  | ok slots => exact ⟨_, rfl⟩
  | error k => exact ⟨_, rfl⟩

theorem AnswersAtOnce.steps {op : Nat} {s : State} {x : Answer} (h : AnswersAtOnce op s x) : ∃ t, x = .next t := by
  obtain ⟨t, -, -, hx, -⟩ := h
  exact ⟨t, hx⟩

/-- Every instruction has a next state, by the form of its meaning; only `RQ.GET` needs the invariant. -/
theorem exec_steps {s : State} (hm : MatcherInv s) (i : Instr) : ∃ t, exec i s = .next t := by
  cases instr_form i with
  | computes _ r _ hexec => exact hexec s ▸ answer_steps r s
  | sendu m hi => exact hi ▸ (exec_rqSendu_answersAtOnce m s).steps
  | sendrRead dev a b tmo hi => exact hi ▸ (exec_rqSendrRead_answersAtOnce dev a b tmo s).steps
  | sendrIdent dev tmo hi => exact hi ▸ (exec_rqSendrIdent_answersAtOnce dev tmo s).steps
  | get b hi => exact hi ▸ exec_rqGet_steps hm b
  | cancel b hi => exact hi ▸ (exec_rqCancel_answersAtOnce b s).steps
  | status n hi => exact hi ▸ (exec_srRead_answersAtOnce n s).steps
  | message _ _ _ hexec | device _ _ _ hexec => exact ⟨_, hexec s⟩
  | frame f hi => exact hi ▸ ⟨_, rfl⟩
  | tick hi => exact hi ▸ ⟨_, rfl⟩

/-- Settles O59, by the input the step takes: an event is refused or runs an instruction, and no other input can stop. -/
theorem stepNeverStops : Obligations.StepNeverStops := by
  intro s hinv
  match hin : s.inputs with
  | [] => exact ⟨_, step_idle hin⟩
  | .event e :: rest =>
    cases hd : decodeEvent e with
    | ok i =>
      obtain ⟨hm, -⟩ := (inv_iff s).1 hinv
      have hm' : MatcherInv (withInputs rest s) := hm.congr (forall_shape.2 ⟨rfl, rfl⟩) rfl rfl
      rw [step_decoded hin hd]
      exact exec_steps hm' i
    | error r => exact ⟨_, step_refused hin hd⟩
  | .resetInput :: rest => exact ⟨_, step_resetInput hin⟩
  | .takeTx :: rest => exact ⟨_, step_takeTx hin⟩
  | .takeNotification :: rest => exact ⟨_, step_takeNotification hin⟩
  | .takeResponse :: rest => exact ⟨_, step_takeResponse hin⟩

end Sys2Proof.Machine
